-- ==== Sys2Proof/Word.lean ====
section
/-! DEFINITION. The words of the block: bytes, timestamps, frames and what one port presents.
Rules: 00_scope.md R10, R11, R15; 30_encoding.md R84. -/

namespace Sys2Proof

/-- A byte (R10): 8 bits, bit 0 the least significant. -/
abbrev Byte := BitVec 8

/-- A timestamp (R15): `TW` = 32 bits, milliseconds of monotonic time. -/
abbrev Time := BitVec 32

/-- A frame (R11): bytes in arrival order, offset 0 arrived first. -/
abbrev Frame := List Byte

/-- A key code of a rule entry (R86, `KEY_W` = 16). -/
abbrev KeyCode := BitVec 16

/-- A command id of a rule entry (R86, `CMD_W` = 8). -/
abbrev CmdId := BitVec 8

/-- What the block is offered for one event (R84): the reset input with its own timestamp, or the event port's three
fields. Each field is kept apart, as the port has it. -/
inductive PortWord where
  /-- the reset input, asserted at `now` -/
  | rst (now : Time)
  /-- the event port: code `ev[2:0]`, byte `data[7:0]`, timestamp `now[31:0]` -/
  | ev (code : BitVec 3) (data : Byte) (now : Time)
  deriving DecidableEq, Repr

end Sys2Proof
end

