-- ==== Sys2Proof/Config.lean ====
section
/-! DEFINITION. What is fixed while the block runs: the sizes of R7, the tables and open parameters of R8 and the straps
of R36. The types hold no ill-formed table (92_eei_decisions.md D15); Decode.lean has the loaders that refuse one. -/

namespace Sys2Proof

/-- `CAP` (R7, D3): bytes of the accumulation buffer. -/
def Config.cap : Nat := 64

/-- `MIN_FRAME` (R7): least buffer length at which the completion test is made. -/
def Config.minFrame : Nat := 4

/-- `PMAX` (R7, D14): longest pattern of a rule entry. -/
def Config.pmax : Nat := 16

/-- Most conditions of one shape (R90). -/
def Config.condMax : Nat := 8

/-- The handler an entry's `HID` selects (R87). `ext x` is the id 0x80 + x, a handler outside the block. The reserved
ids 0x0A to 0x7F have no value here. -/
inductive Handler where
  | noHandler | cdcPoll | cdcInforeq | cdcEnter | cdcStop | cdcPause | cdcStart | cdcDiskchg | cdcOutkey | cdcTmrcancel
  | ext (x : BitVec 7)
  deriving DecidableEq, Repr

/-- One entry of the rule table (R86). `pfx` is `PREFIX[0..PLEN-1]`, so `PLEN` is its length; `key` and `cmd` are present
exactly when `KEY_V` and `CMD_V` are 1. The tag has no effect on any rule and is dropped (R86, log 18). -/
structure RuleEntry where
  pfx     : List Byte
  key     : Option KeyCode
  cmd     : Option CmdId
  handler : Handler
  pfx_le  : pfx.length ≤ Config.pmax
  deriving DecidableEq, Repr

/-- One condition of a shape (R90): `F[off] = val`. -/
structure Cond where
  off : Nat
  val : Byte
  deriving DecidableEq, Repr

/-- R90, R92: `SLEN` in 4..CAP, at most 8 conditions, each offset below `SLEN`. -/
def shapeOk (slen : Nat) (conds : List Cond) : Bool :=
  Config.minFrame ≤ slen && slen ≤ Config.cap && conds.length ≤ Config.condMax && conds.all (fun c => c.off < slen)

/-- One shape of the CD-changer heuristic recogniser (R90), well-formed by construction. -/
structure Shape where
  slen  : Nat
  conds : List Cond
  ok    : shapeOk slen conds = true
  deriving DecidableEq, Repr

/-- The shape table (R60, R90): exactly three entries. -/
structure ShapeTable where
  s0 : Shape
  s1 : Shape
  s2 : Shape
  deriving DecidableEq, Repr

/-- The transmit kinds (R46). -/
inductive TxKind where
  | present | announce | playing | paused | stopped
  deriving DecidableEq, Repr

/-- `TXROM` (R46, R60): one byte string per transmit kind; no operation of the block reads it. -/
structure TxRom where
  present  : List Byte
  announce : List Byte
  playing  : List Byte
  paused   : List Byte
  stopped  : List Byte
  deriving DecidableEq, Repr

/-- The straps (R36), with the widths given there. -/
structure Straps where
  hwrev     : BitVec 8
  mongpio   : BitVec 8
  cdinfoIvl : BitVec 16
  mk3En     : Bool
  btPresent : Bool
  hasCamera : Bool
  deriving DecidableEq, Repr

/-- The open parameters (R8). `TMRCANCEL_PRED` is held as plain data: the list of the frames on which it is FALSE. Frames
of the block have at most 64 bytes, so every predicate on them is such a list (log 10); the empty list is the spec's
default, true once the rule matched. -/
structure Params where
  rules           : List RuleEntry
  shapes          : ShapeTable
  radioAddr       : Byte
  txrom           : TxRom
  dcCkOff         : Nat
  dcPayOff        : Nat
  tmrCancelExcept : List Frame
  deriving DecidableEq, Repr

/-- A shape no frame matches: it asks two values of one byte. DESIGN CHOICE, log 6. -/
def Shape.never : Shape := ⟨4, [⟨0, 0x00⟩, ⟨0, 0x01⟩], by decide⟩

/-- The parameters `State.reset` holds when no platform has given any: the rule table empty and shapes that match nothing
(DESIGN CHOICE), the rest the spec's own defaults marked gk (R8; G1, G3, G6 of 93_implementation_defined.md; PRESUMED).
log 6. No statement rests on them. -/
def Params.unloaded : Params where
  rules := []
  shapes := ⟨Shape.never, Shape.never, Shape.never⟩
  radioAddr := 0x68
  txrom :=
    { present := [0x18, 0x04, 0xFF, 0x02, 0x00, 0xE1]
      announce := [0x18, 0x04, 0xFF, 0x02, 0x01, 0xE0]
      playing := [0x18, 0x0A, 0x68, 0x39, 0x02, 0x09, 0x00, 0x3F, 0x00, 0x01, 0x01, 0x77]
      paused := [0x18, 0x0A, 0x68, 0x39, 0x01, 0x0C, 0x00, 0x3F, 0x00, 0x01, 0x01, 0x71]
      stopped := [0x18, 0x0A, 0x68, 0x39, 0x00, 0x02, 0x00, 0x3F, 0x00, 0x01, 0x01, 0x7E] }
  dcCkOff := 6
  dcPayOff := 5
  tmrCancelExcept := []

end Sys2Proof
end

