-- ==== Sys2Proof/Syntax.lean ====
section
/-! DEFINITION. The operations of the block: one constructor for each of the 33 rows of spec/opcode_table.json, in the
table's order. 30_encoding.md R97 lists them with the way each is selected. -/

namespace Sys2Proof

/-- The operations. Events come from the port (R85) or the reset input; handlers are selected by the matched entry's
`HID` (R87) and take the frame; the sub-operations run inside events (R97, log 14). -/
inductive Instr where
  -- format RESET_INPUT and EV: the input events
  | reset (t : Time)
  | noEvent
  | rxbyte (b : Byte) (t : Time)
  | tick (t : Time)
  | infotmr
  | rxfault
  -- format HID: the handlers; `hext x` has the id 0x80 + x
  | cdcPoll (f : Frame)
  | cdcInforeq (f : Frame)
  | cdcEnter (f : Frame)
  | cdcStop (f : Frame)
  | cdcPause (f : Frame)
  | cdcStart (f : Frame)
  | cdcDiskchg (f : Frame)
  | cdcOutkey (f : Frame)
  | cdcTmrcancel (f : Frame)
  | hext (x : BitVec 7) (f : Frame)
  -- format INT: the sub-operations
  | resync (t : Time)
  | append (b : Byte)
  | complete
  | checksum (f : Frame)
  | dispatch (f : Frame)
  | log (f : Frame)
  | cdcheur (f : Frame)
  | radiocnt (f : Frame)
  | lookup (f : Frame)
  | fire (e : RuleEntry) (f : Frame)
  | unmatched (f : Frame)
  | inforeply
  | cdcentry
  | announce
  | tickcnt
  | winsvc (t : Time)
  -- format FRAME: the rotary frame, with its rotary byte and its checksum byte
  | ruleRotary (rot ck : Byte)
  deriving DecidableEq, Repr

end Sys2Proof
end

