-- ==== Sys2Proof/WellFormed.lean ====
section
/-! DEFINITION. Which operands an operation is defined for. -/

namespace Sys2Proof

/-- R140: a complete frame has 4 to 64 bytes. -/
def frameOk (f : Frame) : Bool := Config.minFrame ≤ f.length && f.length ≤ Config.cap

/-- R130: CHECKSUM is defined for every sequence but the empty one. -/
def nonEmpty (f : Frame) : Bool := !f.isEmpty

/-- The operand checks: handlers and dispatcher steps take a complete frame (R140, R165), CHECKSUM any non-empty
sequence (R130). Every other operand value is legal (R64, R92, R215); ill-formed entries and reserved handler ids have no
value of their types (D15). -/
def Instr.wf : Instr → Bool
  | .reset _ => true
  | .noEvent => true
  | .rxbyte _ _ => true
  | .tick _ => true
  | .infotmr => true
  | .rxfault => true
  | .cdcPoll f => frameOk f
  | .cdcInforeq f => frameOk f
  | .cdcEnter f => frameOk f
  | .cdcStop f => frameOk f
  | .cdcPause f => frameOk f
  | .cdcStart f => frameOk f
  | .cdcDiskchg f => frameOk f
  | .cdcOutkey f => frameOk f
  | .cdcTmrcancel f => frameOk f
  | .hext _ f => frameOk f
  | .resync _ => true
  | .append _ => true
  | .complete => true
  | .checksum f => nonEmpty f
  | .dispatch f => frameOk f
  | .log f => frameOk f
  | .cdcheur f => frameOk f
  | .radiocnt f => frameOk f
  | .lookup f => frameOk f
  | .fire _ f => frameOk f
  | .unmatched f => frameOk f
  | .inforeply => true
  | .cdcentry => true
  | .announce => true
  | .tickcnt => true
  | .winsvc _ => true
  | .ruleRotary _ _ => true

end Sys2Proof
end

