-- ==== Sys2Proof/Decode.lean ====
section
/-! DEFINITION. The formats of 30_encoding.md and what the block reads from them: port words (R84, R85), handler ids (R87),
the rotary frame (R89), raw table entries and shapes with their refusals (R86, R90, R92), transmit kinds (R46), the wire
format (R81, R82). After the decoders stand the encoders, written from the same tables. -/

namespace Sys2Proof

/-- Why a decoder or a table loader rejects (R92). -/
inductive DecodeError where
  /-- `ev` 5, 6, 7: no event; the block ignores the word (R92) -/
  | reservedEvent (code : BitVec 3)
  /-- `HID` 0x0A to 0x7F: the rule table is refused at load (R92) -/
  | reservedHandler (hid : Byte)
  /-- `HID` 0x00 names no operation (R87) -/
  | noHandlerId
  /-- a frame that is not 4 to 64 bytes long (R140, R93) -/
  | frameLength (n : Nat)
  /-- not a frame the operation table names (R89) -/
  | unknownFrame
  /-- fewer bytes than the length byte asks for (R94) -/
  | frameCut
  /-- `PLEN` above 16 (R92) -/
  | patternTooLong (plen : Nat)
  /-- `SLEN` outside 4 to 64 (R92) -/
  | shapeLength (slen : Nat)
  /-- more than 8 conditions (R90) -/
  | shapeConditions (n : Nat)
  /-- a condition's offset not below `SLEN` (R92) -/
  | shapeOffset
  /-- a shape table without exactly three entries (R90) -/
  | shapeCount (n : Nat)
  /-- transmit kind codes 5, 6, 7 (R46) -/
  | reservedKind (code : BitVec 3)
  deriving DecidableEq, Repr

/-- Where an operation's encoding stands (R80, R97). The sub-operations of format INT have none. -/
inductive Code where
  /-- the port or the reset input (R84, R85) -/
  | port (w : PortWord)
  /-- the `HID` byte of the matched entry, with the frame that matched (R87) -/
  | handler (hid : Byte) (f : Frame)
  /-- the bytes of a whole frame (R81, R89) -/
  | frame (f : Frame)
  deriving DecidableEq, Repr

/-! ### Decoders -/

/-- R85: the port's event codes. -/
def decodePort : PortWord → Except DecodeError Instr
  | .rst t => .ok (.reset t)
  | .ev code data now =>
    match code.toNat with
    | 0 => .ok .noEvent
    | 1 => .ok (.rxbyte data now)
    | 2 => .ok (.tick now)
    | 3 => .ok .infotmr
    | 4 => .ok .rxfault
    | _ => .error (.reservedEvent code)

/-- R87: the handler ids. Bit 7 selects an external handler (R97); 0x0A to 0x7F are reserved. -/
def decodeHid (hid : Byte) : Except DecodeError Handler :=
  if hid.msb then .ok (.ext (hid.setWidth 7)) else
  match hid.toNat with
  | 0 => .ok .noHandler
  | 1 => .ok .cdcPoll
  | 2 => .ok .cdcInforeq
  | 3 => .ok .cdcEnter
  | 4 => .ok .cdcStop
  | 5 => .ok .cdcPause
  | 6 => .ok .cdcStart
  | 7 => .ok .cdcDiskchg
  | 8 => .ok .cdcOutkey
  | 9 => .ok .cdcTmrcancel
  | _ => .error (.reservedHandler hid)

/-- The operation a handler is, on the frame that matched; `noHandler` is none (R87). -/
def Handler.toInstr (f : Frame) : Handler → Except DecodeError Instr
  | .noHandler => .error .noHandlerId
  | .cdcPoll => .ok (.cdcPoll f)
  | .cdcInforeq => .ok (.cdcInforeq f)
  | .cdcEnter => .ok (.cdcEnter f)
  | .cdcStop => .ok (.cdcStop f)
  | .cdcPause => .ok (.cdcPause f)
  | .cdcStart => .ok (.cdcStart f)
  | .cdcDiskchg => .ok (.cdcDiskchg f)
  | .cdcOutkey => .ok (.cdcOutkey f)
  | .cdcTmrcancel => .ok (.cdcTmrcancel f)
  | .ext x => .ok (.hext x f)

/-- The one pattern of the rule table the source gives (R89). -/
def rotaryPattern : List Byte := [0xF0, 0x04, 0x3B, 0x49]

/-- R89: the rotary frame has six bytes; byte 4 is the rotary byte, byte 5 the checksum. -/
def decodeFrame : Frame → Except DecodeError Instr
  | [a, b, c, d, rot, ck] => if [a, b, c, d] = rotaryPattern then .ok (.ruleRotary rot ck) else .error .unknownFrame
  | _ => .error .unknownFrame

/-- The decoder: total on every encoded form, rejecting by name. -/
def decode : Code → Except DecodeError Instr
  | .port w => decodePort w
  | .handler hid f =>
    if frameOk f then
      match decodeHid hid with
      | .ok h => h.toInstr f
      | .error e => .error e
    else .error (.frameLength f.length)
  | .frame f => decodeFrame f

/-! ### Table loaders (R92: an ill-formed table is refused before any event) -/

/-- One entry as a platform stores it (R86): 5 + 128 + 1 + 16 + 1 + 8 + 8 = 167 bits. -/
structure RawRule where
  plen : BitVec 5
  pfx  : Vector Byte 16
  keyV : Bool
  key  : KeyCode
  cmdV : Bool
  cmd  : CmdId
  hid  : Byte
  deriving DecidableEq, Repr

/-- The used bytes of a pattern are at most `PMAX` when `PLEN` is. -/
theorem take_length_le_pmax (l : List Byte) {n : Nat} (h : n ≤ Config.pmax) : (l.take n).length ≤ Config.pmax := by
  rw [List.length_take]; omega

/-- R86, R92: load one entry, or refuse it by name. -/
def loadRule (r : RawRule) : Except DecodeError RuleEntry :=
  if h : r.plen.toNat ≤ Config.pmax then
    match decodeHid r.hid with
    | .ok hd =>
      .ok { pfx := r.pfx.toList.take r.plen.toNat
            key := if r.keyV then some r.key else none
            cmd := if r.cmdV then some r.cmd else none
            handler := hd
            pfx_le := take_length_le_pmax _ h }
    | .error e => .error e
  else .error (.patternTooLong r.plen.toNat)

/-- Load a rule table in table order (R86); one ill-formed entry refuses the table (R92). -/
def loadRules : List RawRule → Except DecodeError (List RuleEntry)
  | [] => .ok []
  | r :: rs =>
    match loadRule r with
    | .error e => .error e
    | .ok e =>
      match loadRules rs with
      | .error e' => .error e'
      | .ok es => .ok (e :: es)

/-- One shape as a platform gives it (R90). -/
structure RawShape where
  slen  : Nat
  conds : List Cond
  deriving DecidableEq, Repr

/-- R90, R92: load one shape, or refuse it by name. -/
def loadShape (r : RawShape) : Except DecodeError Shape :=
  if h : shapeOk r.slen r.conds = true then .ok ⟨r.slen, r.conds, h⟩
  else if !(Config.minFrame ≤ r.slen && r.slen ≤ Config.cap) then .error (.shapeLength r.slen)
  else if !(r.conds.length ≤ Config.condMax) then .error (.shapeConditions r.conds.length)
  else .error .shapeOffset

/-- R90: the shape table holds exactly three entries. -/
def loadShapes : List RawShape → Except DecodeError ShapeTable
  | [a, b, c] =>
    match loadShape a with
    | .error e => .error e
    | .ok s0 =>
      match loadShape b with
      | .error e => .error e
      | .ok s1 =>
        match loadShape c with
        | .error e => .error e
        | .ok s2 => .ok ⟨s0, s1, s2⟩
  | l => .error (.shapeCount l.length)

/-- R46: the transmit kind of a code; 5 to 7 are reserved. -/
def decodeKind (c : BitVec 3) : Except DecodeError TxKind :=
  match c.toNat with
  | 0 => .ok .present
  | 1 => .ok .announce
  | 2 => .ok .playing
  | 3 => .ok .paused
  | 4 => .ok .stopped
  | _ => .error (.reservedKind c)

/-! ### The wire format (R81, R82, R66) -/

/-- R82: total length from the length byte, without wrap: 2 to 257 (`LEN_BIAS` = 2). -/
def totalLength (lenb : Byte) : Nat := lenb.toNat + 2

/-- R130: the exclusive-or of all bytes; 0x00 of none. -/
def xorFold (f : List Byte) : Byte := f.foldl (· ^^^ ·) 0x00

/-- R66, R94: cut one frame off a byte stream that starts at a frame's first byte; what is left follows it. A length byte
that no frame of the block can have is rejected (R93). -/
def parseWire : List Byte → Except DecodeError (Frame × List Byte)
  | src :: lenb :: rest =>
    let t := totalLength lenb
    if t < Config.minFrame ∨ Config.cap < t then .error (.frameLength t)
    else if rest.length + 2 < t then .error .frameCut
    else .ok ((src :: lenb :: rest).take t, (src :: lenb :: rest).drop t)
  | _ => .error .frameCut

/-! ### Encoders -/

/-- R87: the id of a handler. -/
def encodeHid : Handler → Byte
  | .noHandler => 0x00
  | .cdcPoll => 0x01
  | .cdcInforeq => 0x02
  | .cdcEnter => 0x03
  | .cdcStop => 0x04
  | .cdcPause => 0x05
  | .cdcStart => 0x06
  | .cdcDiskchg => 0x07
  | .cdcOutkey => 0x08
  | .cdcTmrcancel => 0x09
  | .ext x => 0x80 ||| x.setWidth 8

/-- The encoder: where an operation has an encoding, that encoding; the sub-operations of format INT have none (R97). An
event's `data` and `now` are zero where they have no meaning (R84, R85). -/
def encode : Instr → Option Code
  | .reset t => some (.port (.rst t))
  | .noEvent => some (.port (.ev 0 0 0))
  | .rxbyte b t => some (.port (.ev 1 b t))
  | .tick t => some (.port (.ev 2 0 t))
  | .infotmr => some (.port (.ev 3 0 0))
  | .rxfault => some (.port (.ev 4 0 0))
  | .cdcPoll f => some (.handler (encodeHid .cdcPoll) f)
  | .cdcInforeq f => some (.handler (encodeHid .cdcInforeq) f)
  | .cdcEnter f => some (.handler (encodeHid .cdcEnter) f)
  | .cdcStop f => some (.handler (encodeHid .cdcStop) f)
  | .cdcPause f => some (.handler (encodeHid .cdcPause) f)
  | .cdcStart f => some (.handler (encodeHid .cdcStart) f)
  | .cdcDiskchg f => some (.handler (encodeHid .cdcDiskchg) f)
  | .cdcOutkey f => some (.handler (encodeHid .cdcOutkey) f)
  | .cdcTmrcancel f => some (.handler (encodeHid .cdcTmrcancel) f)
  | .hext x f => some (.handler (encodeHid (.ext x)) f)
  | .ruleRotary rot ck => some (.frame (rotaryPattern ++ [rot, ck]))
  | .resync _ | .append _ | .complete | .checksum _ | .dispatch _ | .log _ | .cdcheur _ | .radiocnt _ | .lookup _
  | .fire _ _ | .unmatched _ | .inforeply | .cdcentry | .announce | .tickcnt | .winsvc _ => none

/-- An entry as a platform stores it (R86): unused pattern bytes and absent fields are zero. -/
def storeRule (e : RuleEntry) : RawRule where
  plen := BitVec.ofNat 5 e.pfx.length
  pfx := Vector.ofFn (fun i => e.pfx.getD i.val 0)
  keyV := e.key.isSome
  key := e.key.getD 0
  cmdV := e.cmd.isSome
  cmd := e.cmd.getD 0
  hid := encodeHid e.handler

/-- R46: the code of a transmit kind. -/
def encodeKind : TxKind → BitVec 3
  | .present => 0
  | .announce => 1
  | .playing => 2
  | .paused => 3
  | .stopped => 4

/-- R99 `MK`: the frame with a valid checksum appended. -/
def mkFrame (bytes : List Byte) : Frame := bytes ++ [xorFold bytes]

/-- R81: the frame of a source, a destination and a payload; the length byte counts payload, destination and checksum. -/
def wireFrame (src dst : Byte) (pay : List Byte) : Frame :=
  mkFrame (src :: BitVec.ofNat 8 (pay.length + 2) :: dst :: pay)

/-! ### Words numbered as spec/opcode_table.json numbers them (log 12) -/

/-- The frame operand of a table word that gives only a handler id: the shortest frame, its other bytes zero. -/
def zeroFrame : Frame := [0x00, 0x02, 0x00, 0x00]

/-- The encoded form a table word stands for; a row without bits has none. A word of at most 8 bits below 5 is an event code (R85) with `data` and
`now` zero; any other byte is a handler id (R87). The table numbers EV rows and HID rows over the same byte, so the ids
0x01 to 0x04 cannot be told from event codes here (log 12). 32 bits are the first four bytes of a six-byte frame, the
first byte in the upper bits (R89). -/
def codeOfTableWord (nbits w : Nat) : Option Code :=
  if nbits = 0 then none
  else if nbits ≤ 8 then
    if w < 5 then some (.port (.ev (BitVec.ofNat 3 w) 0 0))
    else if w < 256 then some (.handler (BitVec.ofNat 8 w) zeroFrame)
    else none
  else if nbits = 32 ∧ w < 4294967296 then
    some (.frame [BitVec.ofNat 8 (w / 16777216), BitVec.ofNat 8 (w / 65536), BitVec.ofNat 8 (w / 256), BitVec.ofNat 8 w, 0, 0])
  else none

/-- The instruction the decoder reads from a table word. -/
def decodeTableWord (nbits w : Nat) : Option Instr :=
  match codeOfTableWord nbits w with
  | none => none
  | some c =>
    match decode c with
    | .ok i => some i
    | .error _ => none

end Sys2Proof
end

