-- ==== Sys2Proof/Machine/State.lean ====
section
/-! DEFINITION. The machine's state as plain data (10_state.md R20), the output actions (R45), the reasons a step can stop,
and the state right after reset (R44). -/

namespace Sys2Proof.Machine

/-- The play state of the emulated changer (R31). -/
inductive CdPlay where
  | none | playing | paused | stopped
  deriving DecidableEq, Repr

/-- The source's five-valued view of the emulator (R32); it is computed, not stored. -/
inductive CdView where
  | notPolled | polled | playing | paused | stopped
  deriving DecidableEq, Repr

/-- The video sources the block may request (R45). -/
inductive VideoSrc where
  | pi | bmw
  deriving DecidableEq, Repr

/-- The conditions of R216. Only `ioFail` is ever the argument of `HALT`. -/
inductive Cause where
  | framingGap | overlength | cksumMismatch | unrecognized | unknownSubtype | ioFail | noLog | noSerial
  deriving DecidableEq, Repr

/-- The output actions (R45). -/
inductive Action where
  | log (f : Frame) (corrupt : Bool)
  | key (code : KeyCode)
  | cmd (cid : CmdId)
  | hext (hid : Byte) (f : Frame)
  | rxnote (f : Frame)
  | tx (kind : TxKind)
  | tmrArm (seconds : BitVec 16)
  | tmrCancel
  | unmute
  | video (src : VideoSrc)
  | txqService (isOpen : Bool)
  | halt (c : Cause)
  deriving DecidableEq, Repr

/-- What a sub-operation hands back when it runs as an instruction of its own: the model's, not the spec's (log 4). -/
inductive Result where
  /-- nothing handed back yet -/
  | nothing
  /-- the verdict of CHECKSUM (R130) -/
  | verdict (valid : Bool)
  /-- the entry index LOOKUP found, or none for NOMATCH (R146) -/
  | entry (index : Option Nat)
  deriving DecidableEq, Repr

/-- Why the machine stops. Both are SAFE: the hardware would read some byte, the model stops. Neither can be reached from
a state that meets the invariant (R61). -/
inductive Fault where
  /-- COMPLETE reads a slot that nothing has written (R44: "never written"). Raised by `readSlot`. -/
  | unwrittenSlot (slot : Nat)
  /-- COMPLETE reads beyond the buffer's 64 slots (R61). Raised by `readSlot`. -/
  | outsideBuf (slot : Nat)
  deriving DecidableEq, Repr

/-- Why an instruction has no meaning. -/
inductive Refusal where
  /-- raised by an arm of `exec` whose instruction has no meaning yet; SAFE. No arm is left. -/
  | notModelled (mnemonic : String)
  /-- CHECKSUM, LOG or DISPATCH on the empty sequence, for which R130 defines nothing; SAFE, and no event leads to it. -/
  | emptyFrame
  deriving DecidableEq, Repr

/-- The accumulation buffer (R21, R60): the slots that have been written, with their bytes. -/
abbrev Memory := List Host.Cell

/-- Addresses strictly rise from `lo` and lie in the buffer. -/
def Memory.wfFrom : Nat → Memory → Bool
  | _, [] => true
  | lo, (a, _) :: m => lo ≤ a && a < Config.cap && Memory.wfFrom (a + 1) m

/-- The canonical form: addresses strictly rising, all of them slots of the buffer. A slot that is not listed has no value
(log 8), so no entry can equal it. -/
def Memory.wf (m : Memory) : Bool := Memory.wfFrom 0 m

/-- The state (R20). `buf` to `straps` are the block's; `strapPins` and `inbox` are its inputs, `actions` its output list;
`result` is the model's own; `params` is the configuration, which no operation writes (log 1 to log 5). -/
structure State where
  /-- `BUF[0..63]` (R21) -/
  buf               : Memory
  /-- `LEN`, 0..64 (R24) -/
  len               : Nat
  /-- `lastRx` (R27) -/
  lastRx            : Time
  /-- `sendWindowOpen` (R28) -/
  sendWindowOpen    : Bool
  /-- `keyboardBlocked` (R29) -/
  keyboardBlocked   : Bool
  /-- `cdPolled` (R30) -/
  cdPolled          : Bool
  /-- `cdPlay` (R31) -/
  cdPlay            : CdPlay
  /-- `radioMessageCount`, 0..0xFFFF (R33) -/
  radioMessageCount : Nat
  /-- `tick600`, 0..599 (R34) -/
  tick600           : Nat
  /-- `infoLive` (R35) -/
  infoLive          : Bool
  /-- `halted` (R37) -/
  halted            : Bool
  /-- the straps as RESET sampled them (R36) -/
  straps            : Straps
  /-- the levels on the strap inputs (R36, log 7) -/
  strapPins         : Straps
  /-- the words offered to the port: one group for each instant, the words of a group ready together (R224, log 1) -/
  inbox             : List (List PortWord)
  /-- every action emitted so far, oldest first (R45, R69 O3, log 3) -/
  actions           : List Action
  /-- what CHECKSUM or LOOKUP handed back when run as an instruction (log 4) -/
  result            : Result
  /-- the tables and parameters of R8 (log 5) -/
  params            : Params
  deriving DecidableEq, Repr

/-- Every strap input low (DESIGN CHOICE, log 7). -/
def strapsLow : Straps :=
  { hwrev := 0, mongpio := 0, cdinfoIvl := 0, mk3En := false, btPresent := false, hasCamera := false }

/-- The state right after `RESET(0)` (R44, R240): the values of R44, nothing at the inputs, nothing emitted, no table
given. The time 0, the strap levels and `params` are the model's (log 6, log 7, log 19). -/
def State.reset : State where
  buf := []
  len := 0
  lastRx := 0
  sendWindowOpen := false
  keyboardBlocked := true
  cdPolled := false
  cdPlay := .none
  radioMessageCount := 0
  tick600 := 0
  infoLive := false
  halted := false
  straps := strapsLow
  strapPins := strapsLow
  inbox := []
  actions := []
  result := .nothing
  params := Params.unloaded

end Sys2Proof.Machine
end

