-- ==== Sys2Proof/Machine/Operands.lean ====
section
/-! DEFINITION. What the operations compute from their operands: elapsed time (R15), the fields of a frame (R66), the
checksum verdict (R130), the match predicates of rules (R88), shapes (R143) and the disk-change check (R172). -/

namespace Sys2Proof.Machine

/-- `RESYNC_MS` (R7). -/
def resyncMs : Nat := 64
/-- `ANNOUNCE_TICKS` (R7). -/
def announceTicks : Nat := 600
/-- `WINDOW_QUIET_MS` (R7). -/
def windowQuietMs : Nat := 100
/-- `DC_XOR` (R7). -/
def dcXor : Byte := 0x4B
/-- Where `radioMessageCount` saturates (R33, D10). -/
def radioCountMax : Nat := 0xFFFF
/-- The least `HWREV` with relay and video hardware (R36). -/
def videoHwrev : Nat := 4

/-- `elapsed(t, u) = (t - u) mod 2^32` (R15). -/
def elapsed (t u : Time) : Nat := (t - u).toNat

/-- R112: the gap exceeds the threshold; exactly 64 ms does not. -/
def gapTooLong (t last : Time) : Bool := resyncMs < elapsed t last

/-! ### Fields of a frame (R66, R81) -/

/-- `SRC`, offset 0. -/
def frameSrc (f : Frame) : Option Byte := f[0]?
/-- `LENB`, offset 1. -/
def frameLenb (f : Frame) : Option Byte := f[1]?
/-- `DST`, offset 2. -/
def frameDst (f : Frame) : Option Byte := f[2]?
/-- `PAY`, offsets 3 to T-2. -/
def framePay (f : Frame) : List Byte := (f.drop 3).dropLast
/-- `CK`, the last offset. -/
def frameCk (f : Frame) : Option Byte := f.getLast?

/-- CHECKSUM's verdict (R130): the exclusive-or of all bytes but the last equals the last. R130 defines it for non-empty
frames; the instructions that ask for it refuse the empty one. -/
def checksumValid (f : Frame) : Bool := f.getLast? == some (xorFold f.dropLast)

/-- R88: `PLEN ≤ |F|` and the pattern's bytes agree with the frame's first bytes. -/
def entryMatches (e : RuleEntry) (f : Frame) : Bool := e.pfx.length ≤ f.length && f.take e.pfx.length == e.pfx

/-- LOOKUP (R146): the index of the first matching entry in table order. -/
def lookupIn : List RuleEntry → Frame → Option Nat
  | [], _ => none
  | e :: es, f => if entryMatches e f then some 0 else (lookupIn es f).map (· + 1)

/-- One condition of a shape (R90). -/
def condHolds (f : Frame) (c : Cond) : Bool := f[c.off]? == some c.val

/-- `shape_match` (R143). -/
def shapeMatches (sh : Shape) (f : Frame) : Bool := f.length == sh.slen && sh.conds.all (condHolds f)

/-- R143: the frame matches one of the three shapes. -/
def anyShapeMatches (t : ShapeTable) (f : Frame) : Bool :=
  shapeMatches t.s0 f || shapeMatches t.s1 f || shapeMatches t.s2 f

/-- R145: the source byte is the radio's address. -/
def fromRadio (p : Params) (f : Frame) : Bool := frameSrc f == some p.radioAddr

/-- R172: both offsets lie in the frame and `F[DC_CK_OFF] = 0x4B ^ F[DC_PAY_OFF]`. -/
def diskChangeOk (p : Params) (f : Frame) : Bool :=
  match f[p.dcCkOff]?, f[p.dcPayOff]? with
  | some ck, some pay => ck == dcXor ^^^ pay
  | _, _ => false

/-- `TMRCANCEL_PRED` (R8, R174): true but for the listed frames (log 10). -/
def tmrCancelPred (p : Params) (f : Frame) : Bool := !p.tmrCancelExcept.contains f

/-- The id an external handler is passed out with (R148): 0x80 to 0xFF. -/
def extHid (x : BitVec 7) : Byte := encodeHid (.ext x)

/-- R46, R60: the bytes of a transmit kind, for the transmit queue. -/
def txromBytes (rom : TxRom) : TxKind → List Byte
  | .present => rom.present
  | .announce => rom.announce
  | .playing => rom.playing
  | .paused => rom.paused
  | .stopped => rom.stopped

end Sys2Proof.Machine
end

