-- ==== Sys2Proof/Machine/Flags.lean ====
section
/-! DEFINITION. What is computed from the flags and counters: the views `playing` and `cdView` (R31, R32), the conditions
the straps gate (R36), the window test (R204), the saturating and wrapping counts (R33, R34), codes (R31, R216) and the
exported levels (R47). -/

namespace Sys2Proof.Machine

/-- The view `playing = (cdPlay = PLAYING)` (R31). -/
def playing (s : State) : Bool := s.cdPlay == .playing

/-- The view `cdView` (R32). -/
def cdView (s : State) : CdView :=
  match s.cdPlay with
  | .playing => .playing
  | .paused => .paused
  | .stopped => .stopped
  | .none => if s.cdPolled then .polled else .notPolled

/-- The codes of `cdPlay` (R31). -/
def cdPlayCode : CdPlay → BitVec 2
  | .none => 0
  | .playing => 1
  | .paused => 2
  | .stopped => 3

/-- All four codes are legal (R31, R92). -/
def cdPlayOfCode (c : BitVec 2) : CdPlay :=
  match c.toNat with
  | 0 => .none
  | 1 => .playing
  | 2 => .paused
  | _ => .stopped

/-- The cause codes (R216). -/
def causeCode : Cause → Nat
  | .framingGap => 0
  | .overlength => 1
  | .cksumMismatch => 2
  | .unrecognized => 3
  | .unknownSubtype => 4
  | .ioFail => 5
  | .noLog => 6
  | .noSerial => 7

/-- `HWREV >= 4` (R36). -/
def hasVideo (s : State) : Bool := videoHwrev ≤ s.straps.hwrev.toNat

/-- `MONGPIO > 0` (R36). -/
def monitorsLine (s : State) : Bool := 0 < s.straps.mongpio.toNat

/-- `CDINFO_IVL > 0` (R36). -/
def infoTimerUsed (s : State) : Bool := 0 < s.straps.cdinfoIvl.toNat

/-- R204: at least 100 ms of quiet and no frame mid-assembly. -/
def windowMayOpen (t : Time) (s : State) : Bool := windowQuietMs ≤ elapsed t s.lastRx && s.len == 0

/-- R178: not yet polled, and a radio frame counted. -/
def announceDue (s : State) : Bool := !s.cdPolled && 0 < s.radioMessageCount

/-- The saturating count (R33, R145). -/
def countUp (n : Nat) : Nat := min (n + 1) radioCountMax

/-- The priority of R224, smaller first. Code 0 and the reserved codes ask for nothing and come last (log 2). -/
def portPriority : PortWord → Nat
  | .rst _ => 0
  | .ev code _ _ =>
    match code.toNat with
    | 4 => 1
    | 1 => 2
    | 3 => 3
    | 2 => 4
    | _ => 5

/-- The levels the surroundings see at all times (R47). -/
structure Levels where
  sendWindowOpen  : Bool
  keyboardBlocked : Bool
  lastRx          : Time
  tick600         : BitVec 10
  idle            : Bool
  playing         : Bool
  cdPolled        : Bool
  halted          : Bool
  straps          : Straps
  deriving DecidableEq, Repr

/-- R47. Reading a level has no side effect. -/
def levels (s : State) : Levels where
  sendWindowOpen := s.sendWindowOpen
  keyboardBlocked := s.keyboardBlocked
  lastRx := s.lastRx
  tick600 := BitVec.ofNat 10 s.tick600
  idle := s.len == 0
  playing := playing s
  cdPolled := s.cdPolled
  halted := s.halted
  straps := s.straps

end Sys2Proof.Machine
end

