-- ==== Sys2Proof/Machine/Ops.lean ====
section
/-! DEFINITION. The named operations: reading and writing the buffer (R13, R61), emitting an action (R14), halting and the
reset that alone leaves the halted state (R14, R222, R240), and the offering of events at the port (R224, R225). -/

namespace Sys2Proof.Machine

/-! ### The buffer -/

/-- The byte of a slot, if the slot has been written. -/
def Memory.read : Memory → Nat → Option Byte
  | [], _ => none
  | (a, v) :: m, k => if a = k then some v else Memory.read m k

/-- Write one slot; the addresses stay in rising order. -/
def Memory.write : Memory → Nat → Byte → Memory
  | [], k, v => [(k, v)]
  | (a, w) :: m, k, v =>
    if k < a then (k, v) :: (a, w) :: m
    else if k = a then (k, v) :: m
    else (a, w) :: Memory.write m k v

/-- `MemRead(BUF, a, 1)` (R61): a slot beyond the buffer and a slot never written stop the machine by name (log 8). -/
def readSlot (m : Memory) (a : Nat) : Except Fault Byte :=
  if Config.cap ≤ a then .error (.outsideBuf a)
  else
    match m.read a with
    | some b => .ok b
    | none => .error (.unwrittenSlot a)

/-- `MemRead(BUF, a, n)` (R13): `n` bytes from slot `a` on, lowest first. -/
def readSlots (m : Memory) (a : Nat) : Nat → Except Fault (List Byte)
  | 0 => .ok []
  | n + 1 =>
    match readSlot m a with
    | .error e => .error e
    | .ok b =>
      match readSlots m (a + 1) n with
      | .error e => .error e
      | .ok bs => .ok (b :: bs)

/-- The bytes of a frame laid into the buffer from slot `a` on. -/
def layBytes (m : Memory) : Nat → List Byte → Memory
  | _, [] => m
  | a, b :: bs => layBytes (m.write a b) (a + 1) bs

/-! ### Output -/

/-- `emit A` (R14): append one action to the output list. -/
def State.emit (s : State) (a : Action) : State := { s with actions := s.actions ++ [a] }

/-! ### Taking the exception, and the way back -/

/-- `raise Halt(c)` (R14, R222): `halted <- 1`, emit `HALT(c)`, the event ends. Nothing is saved; the rest of the state is
kept as it was (R227). -/
def raiseHalt (c : Cause) (s : State) : State := State.emit { s with halted := true } (.halt c)

/-- `RESET(t)` (R240, R229): every element to its reset value, the straps sampled from their inputs, no action. The slots of
the buffer are unspecified afterwards, which the model holds as never written (R44, log 8). Inputs still offered,
actions already emitted and the configuration are not the block's to change. -/
def resetBlock (t : Time) (s : State) : State :=
  { s with
    buf := []
    len := 0
    lastRx := t
    sendWindowOpen := false
    keyboardBlocked := true
    cdPolled := false
    cdPlay := .none
    radioMessageCount := 0
    tick600 := 0
    infoLive := false
    halted := false
    straps := s.strapPins }

/-! ### The port -/

/-- The highest priority among the words ready together (R225). -/
def bestPriority (ws : List PortWord) : Nat := ws.foldl (fun p w => min p (portPriority w)) 5

/-- Does this word have priority `p`? -/
def hasPriority (p : Nat) (w : PortWord) : Bool := portPriority w == p

/-- R225: of the words ready together the first of the highest priority goes; the others stay, in their order. An
instant whose last word goes is over. -/
def takeReady (ws : List PortWord) (later : List (List PortWord)) : PortWord × List (List PortWord) :=
  match ws.find? (hasPriority (bestPriority ws)) with
  | none => (.ev 0 0 0, later)
  | some w =>
    match ws.eraseP (hasPriority (bestPriority ws)) with
    | [] => (w, later)
    | w' :: rest => (w, (w' :: rest) :: later)

/-- The word the port presents next, and what is offered after it. With nothing offered the port shows code 0, "no event"
(R85, log 1). -/
def nextWord : List (List PortWord) → PortWord × List (List PortWord)
  | [] => (.ev 0 0 0, [])
  | ws :: later => takeReady ws later

/-- The state with the presented word taken off the port. -/
def State.took (s : State) (rest : List (List PortWord)) : State := { s with inbox := rest }

/-- R92: a reserved event code is ignored, with no state change and no action. -/
def ignoreWord (s : State) : Host.Outcome State Fault Refusal := .next s

/-- A rule entry that matches every frame and calls handler `h`. -/
def catchAll (h : Handler) : RuleEntry where
  pfx := []
  key := none
  cmd := none
  handler := h
  pfx_le := Nat.zero_le _

/-- A rule entry for the rotary frame with an external handler, as R148's example has it. -/
def rotaryEntry : RuleEntry where
  pfx := rotaryPattern
  key := none
  cmd := none
  handler := .ext 0
  pfx_le := by decide

/-- All but the last byte of `f` in the buffer and the last byte at the port, under an entry `e` at the head of the rule
table: the next event completes `f` and dispatches it. -/
def State.aboutToDispatch (s : State) (e : RuleEntry) (f : Frame) : State :=
  { s with
    buf := layBytes s.buf 0 f.dropLast
    len := f.length - 1
    inbox := [.ev 1 (f.getLastD 0) s.lastRx] :: s.inbox
    params := { s.params with rules := e :: s.params.rules } }

/-- Place an encoded operation so that the next step runs it (log 12): a port word at the port; a handler id in an entry
of the rule table, with a frame about to complete; a frame with its last byte about to arrive. -/
def placeCode (c : Code) (s : State) : State :=
  match c with
  | .port w => { s with inbox := [w] :: s.inbox }
  | .handler hid f =>
    match decodeHid hid with
    | .ok h => s.aboutToDispatch (catchAll h) f
    | .error _ => s
  | .frame f => s.aboutToDispatch rotaryEntry f

/-- Place the operation of a table word, where it has one. -/
def placeTableWord (nbits w : Nat) (s : State) : State :=
  match codeOfTableWord nbits w with
  | some c => placeCode c s
  | none => s

end Sys2Proof.Machine
end

