-- ==== Sys2Proof/Machine/CdChanger.lean ====
section
/-! DEFINITION. The CdChangerEmulator (43_cd_changer.md): the internal handlers R166 to R174, the info timer's event R176 and
the shared sub-operations R175, R177, R178. -/

namespace Sys2Proof.Machine

/-! ### Shared sub-operations -/

/-- INFOREPLY (R175): the reply selected by `cdPlay`; only "now playing" un-mutes (D9). -/
def infoReply (s : State) : State :=
  match s.cdPlay with
  | .playing => (s.emit (.tx .playing)).emit .unmute
  | .paused => s.emit (.tx .paused)
  | .stopped => s.emit (.tx .stopped)
  | .none => s.emit (.tx .stopped)

/-- CDCENTRY (R177). -/
def cdcEntry (s : State) : State :=
  if hasVideo s then State.emit { s with keyboardBlocked := false, cdPlay := .playing } (.video .pi)
  else { s with keyboardBlocked := false, cdPlay := .playing }

/-- ANNOUNCE (R178). -/
def announce (s : State) : State :=
  if announceDue s then { s.emit (.tx .announce) with radioMessageCount := 0 } else s

/-- R167: cancel a held timer first, then arm the new one. -/
def rearmInfoTimer (s : State) : State :=
  if infoTimerUsed s then
    if s.infoLive then { (s.emit .tmrCancel).emit (.tmrArm s.straps.cdinfoIvl) with infoLive := true }
    else { s.emit (.tmrArm s.straps.cdinfoIvl) with infoLive := true }
  else s

/-! ### Handlers -/

/-- CDC_POLL (R166). -/
def cdcPoll (s : State) : State := { s.emit (.tx .present) with cdPolled := true }

/-- CDC_INFOREQ (R167): the reply comes before the timer actions. -/
def cdcInforeq (s : State) : State := rearmInfoTimer (infoReply s)

/-- CDC_STOP (R169). -/
def cdcStop (s : State) : State := { s.emit (.tx .stopped) with cdPlay := .stopped }

/-- CDC_PAUSE (R170). -/
def cdcPause (s : State) : State := { s.emit (.tx .paused) with cdPlay := .paused }

/-- CDC_START (R171). -/
def cdcStart (s : State) : State := { s.emit (.tx .playing) with cdPlay := .playing }

/-- CDC_DISKCHG (R172): only the reply, and only if the frame's own check passes. -/
def cdcDiskchg (f : Frame) (s : State) : State := if diskChangeOk s.params f then s.emit (.tx .playing) else s

/-- CDC_OUTKEY (R173). -/
def cdcOutkey (s : State) : State :=
  if hasVideo s then State.emit { s with keyboardBlocked := true } (.video .bmw) else { s with keyboardBlocked := true }

/-- CDC_TMRCANCEL (R174): never a second cancel. -/
def cdcTmrcancel (f : Frame) (s : State) : State :=
  if tmrCancelPred s.params f && s.infoLive then { s.emit .tmrCancel with infoLive := false } else s

/-- INFOTMR (R176), R222: ignored while halted and while no timer is live. -/
def infoTimer (s : State) : State := if s.halted then s else if s.infoLive then infoReply s else s

/-! ### The instructions -/

/-- CDC_POLL, `HID` 0x01 (R166); `f` is not read. -/
def execCdcPoll (_f : Frame) (s : State) : Host.Outcome State Fault Refusal := .next (cdcPoll s)

/-- CDC_INFOREQ, `HID` 0x02 (R167); `f` is not read. -/
def execCdcInforeq (_f : Frame) (s : State) : Host.Outcome State Fault Refusal := .next (cdcInforeq s)

/-- CDC_ENTER, `HID` 0x03 (R168); `f` is not read. -/
def execCdcEnter (_f : Frame) (s : State) : Host.Outcome State Fault Refusal := .next (cdcEntry s)

/-- CDC_STOP, `HID` 0x04 (R169); `f` is not read. -/
def execCdcStop (_f : Frame) (s : State) : Host.Outcome State Fault Refusal := .next (cdcStop s)

/-- CDC_PAUSE, `HID` 0x05 (R170); `f` is not read. -/
def execCdcPause (_f : Frame) (s : State) : Host.Outcome State Fault Refusal := .next (cdcPause s)

/-- CDC_START, `HID` 0x06 (R171); `f` is not read. -/
def execCdcStart (_f : Frame) (s : State) : Host.Outcome State Fault Refusal := .next (cdcStart s)

/-- CDC_DISKCHG, `HID` 0x07 (R172). -/
def execCdcDiskchg (f : Frame) (s : State) : Host.Outcome State Fault Refusal := .next (cdcDiskchg f s)

/-- CDC_OUTKEY, `HID` 0x08 (R173); `f` is not read. -/
def execCdcOutkey (_f : Frame) (s : State) : Host.Outcome State Fault Refusal := .next (cdcOutkey s)

/-- CDC_TMRCANCEL, `HID` 0x09 (R174). -/
def execCdcTmrcancel (f : Frame) (s : State) : Host.Outcome State Fault Refusal := .next (cdcTmrcancel f s)

/-- INFOTMR, `ev` 3 (R176). -/
def execInfotmr (s : State) : Host.Outcome State Fault Refusal := .next (infoTimer s)

/-- INFOREPLY (R175). -/
def execInforeply (s : State) : Host.Outcome State Fault Refusal := .next (infoReply s)

/-- CDCENTRY (R177). -/
def execCdcentry (s : State) : Host.Outcome State Fault Refusal := .next (cdcEntry s)

/-- ANNOUNCE (R178). -/
def execAnnounce (s : State) : Host.Outcome State Fault Refusal := .next (announce s)

end Sys2Proof.Machine
end

