-- ==== Sys2Proof/Machine/Dispatcher.lean ====
section
/-! DEFINITION. The ChecksumValidator as an instruction (41_checksum.md) and the EventDispatcher (42_dispatch.md): the five
steps of DISPATCH, the lookup, the effects of the matched entry, and the rotary frame (R89). -/

namespace Sys2Proof.Machine

/-- LOG (R142): the frame with its checksum verdict, which gates nothing (R131). -/
def logFrame (f : Frame) (s : State) : State := s.emit (.log f (!checksumValid f))

/-- CDCHEUR (R143): CDC-mode entry at most once, however many shapes match (D34). -/
def cdcHeuristic (f : Frame) (s : State) : State := if anyShapeMatches s.params.shapes f then cdcEntry s else s

/-- RADIOCNT (R145). -/
def radioCount (f : Frame) (s : State) : State :=
  if fromRadio s.params f then { s with radioMessageCount := countUp s.radioMessageCount } else s

/-- HEXT (R148): the id and the frame go out, nothing comes back. -/
def callExternal (x : BitVec 7) (f : Frame) (s : State) : State := s.emit (.hext (extHid x) f)

/-- The handler a matched entry names (R147). -/
def runHandler (f : Frame) (s : State) : Handler → State
  | .noHandler => s
  | .cdcPoll => cdcPoll s
  | .cdcInforeq => cdcInforeq s
  | .cdcEnter => cdcEntry s
  | .cdcStop => cdcStop s
  | .cdcPause => cdcPause s
  | .cdcStart => cdcStart s
  | .cdcDiskchg => cdcDiskchg f s
  | .cdcOutkey => cdcOutkey s
  | .cdcTmrcancel => cdcTmrcancel f s
  | .ext x => callExternal x f s

/-- The key of an entry (R147): emitted unless the keyboard is blocked at that moment. -/
def fireKey (key : Option KeyCode) (s : State) : State :=
  match key with
  | some k => if s.keyboardBlocked then s else s.emit (.key k)
  | none => s

/-- The command of an entry (R147): the keyboard flag does not gate it. -/
def fireCmd (cmd : Option CmdId) (s : State) : State :=
  match cmd with
  | some c => s.emit (.cmd c)
  | none => s

/-- FIRE (R147): key, command, handler, in that order (D22). -/
def fireEntry (e : RuleEntry) (f : Frame) (s : State) : State := runHandler f (fireCmd e.cmd (fireKey e.key s)) e.handler

/-- UNMATCHED (R149). -/
def unmatchedFrame (f : Frame) (s : State) : State := s.emit (.rxnote f)

/-- Steps (d) and (e) of DISPATCH (R140): the first matching entry fires, or the frame is unmatched. -/
def lookupAndFire (f : Frame) (s : State) : State :=
  match lookupIn s.params.rules f with
  | none => unmatchedFrame f s
  | some i =>
    match s.params.rules[i]? with
    | some e => fireEntry e f s
    | none => s

/-- DISPATCH (R140): log, heuristic, radio count, then lookup and its effect. -/
def dispatchFrame (f : Frame) (s : State) : State := lookupAndFire f (radioCount f (cdcHeuristic f (logFrame f s)))

/-! ### The instructions -/

/-- CHECKSUM (R130): hand back the verdict; no state of the block is read or written (log 4). The empty sequence is
refused: R130 defines nothing for it (log 15). -/
def execChecksum (f : Frame) (s : State) : Host.Outcome State Fault Refusal :=
  if nonEmpty f then .next { s with result := .verdict (checksumValid f) } else .refused .emptyFrame

/-- DISPATCH (R140). -/
def execDispatch (f : Frame) (s : State) : Host.Outcome State Fault Refusal :=
  if nonEmpty f then .next (dispatchFrame f s) else .refused .emptyFrame

/-- LOG (R142). -/
def execLog (f : Frame) (s : State) : Host.Outcome State Fault Refusal :=
  if nonEmpty f then .next (logFrame f s) else .refused .emptyFrame

/-- CDCHEUR (R143). -/
def execCdcheur (f : Frame) (s : State) : Host.Outcome State Fault Refusal := .next (cdcHeuristic f s)

/-- RADIOCNT (R145). -/
def execRadiocnt (f : Frame) (s : State) : Host.Outcome State Fault Refusal := .next (radioCount f s)

/-- LOOKUP (R146): hand back the index of the first match, or none; no state of the block is written (log 4). -/
def execLookup (f : Frame) (s : State) : Host.Outcome State Fault Refusal :=
  .next { s with result := .entry (lookupIn s.params.rules f) }

/-- FIRE (R147). -/
def execFire (e : RuleEntry) (f : Frame) (s : State) : Host.Outcome State Fault Refusal := .next (fireEntry e f s)

/-- HEXT, `HID` 0x80 to 0xFF (R148). -/
def execHext (x : BitVec 7) (f : Frame) (s : State) : Host.Outcome State Fault Refusal := .next (callExternal x f s)

/-- UNMATCHED (R149). -/
def execUnmatched (f : Frame) (s : State) : Host.Outcome State Fault Refusal := .next (unmatchedFrame f s)

/-- RULE_ROTARY (R89): the six-byte rotary frame is dispatched like any complete frame; which entry takes it, and so which
external handler, is the rule table's (log 13). -/
def execRuleRotary (rot ck : Byte) (s : State) : Host.Outcome State Fault Refusal :=
  .next (dispatchFrame (rotaryPattern ++ [rot, ck]) s)

end Sys2Proof.Machine
end

