-- ==== Sys2Proof/Machine/Assembler.lean ====
section
/-! DEFINITION. The FrameAssembler (40_frame_assembler.md): RXBYTE and its sub-operations RESYNC, APPEND, COMPLETE. -/

namespace Sys2Proof.Machine

/-- RESYNC (R112): a gap of more than 64 ms drops the partial frame; no slot is cleared. -/
def resync (t : Time) (s : State) : State := if gapTooLong t s.lastRx then { s with len := 0 } else s

/-- R115: every received byte stamps the time and closes the transmit window. -/
def stampByte (t : Time) (s : State) : State := { s with lastRx := t, sendWindowOpen := false }

/-- APPEND (R113): the next slot, or the last slot once the buffer is full. -/
def appendByte (b : Byte) (s : State) : State :=
  if s.len < Config.cap then { s with buf := s.buf.write s.len b, len := s.len + 1 }
  else { s with buf := s.buf.write (Config.cap - 1) b }

/-- COMPLETE (R114): with at least 4 bytes and `BUF[1] + 2 = LEN` the bytes are copied out, `LEN` is cleared and the copy is
dispatched. `BUF[1]` is read only when `LEN >= 4`. -/
def completeFrame (s : State) : Host.Outcome State Fault Refusal :=
  if s.len < Config.minFrame then .next s
  else
    match readSlot s.buf 1 with
    | .error e => .fault e
    | .ok lenb =>
      if totalLength lenb = s.len then
        match readSlots s.buf 0 s.len with
        | .error e => .fault e
        | .ok f => .next (dispatchFrame f { s with len := 0 })
      else .next s

/-! ### The instructions -/

/-- RXBYTE, `ev` 1 (R111, R222). -/
def execRxbyte (b : Byte) (t : Time) (s : State) : Host.Outcome State Fault Refusal :=
  if s.halted then .next s else completeFrame (appendByte b (stampByte t (resync t s)))

/-- RESYNC (R112). -/
def execResync (t : Time) (s : State) : Host.Outcome State Fault Refusal := .next (resync t s)

/-- APPEND (R113). -/
def execAppend (b : Byte) (s : State) : Host.Outcome State Fault Refusal := .next (appendByte b s)

/-- COMPLETE (R114). -/
def execComplete (s : State) : Host.Outcome State Fault Refusal := completeFrame s

end Sys2Proof.Machine
end

