-- ==== Sys2Proof/Machine/Events.lean ====
section
/-! DEFINITION. The events that belong to no unit: NONE (R85), RESET (R240) and RXFAULT (R222). -/

namespace Sys2Proof.Machine

/-- NONE, `ev` 0 (R85): no event, nothing happens. -/
def execNoEvent (s : State) : Host.Outcome State Fault Refusal := .next s

/-- RESET (R240): applies halted or not, and emits nothing. -/
def execReset (t : Time) (s : State) : Host.Outcome State Fault Refusal := .next (resetBlock t s)

/-- RXFAULT, `ev` 4 (R222): the fatal receive failure halts the block; while halted it does nothing (R229). -/
def execRxfault (s : State) : Host.Outcome State Fault Refusal :=
  if s.halted then .next s else .next (raiseHalt .ioFail s)

end Sys2Proof.Machine
end

