-- ==== Sys2Proof/Machine/Tick.lean ====
section
/-! DEFINITION. The tick family (44_tick.md): TICK and its sub-operations TICKCNT and WINSVC. -/

namespace Sys2Proof.Machine

/-- TICKCNT (R201): count the tick; the 600th wraps the count and, with `MK3_EN`, evaluates the announcement (R202). -/
def tickCount (s : State) : State :=
  if s.tick600 + 1 = announceTicks then
    if s.straps.mk3En then announce { s with tick600 := 0 } else { s with tick600 := 0 }
  else { s with tick600 := s.tick600 + 1 }

/-- WINSVC (R204): the queue is handed the flag's value from before this tick's update; then the window may open. -/
def serviceWindow (t : Time) (s : State) : State :=
  if monitorsLine s then
    if windowMayOpen t s then { s.emit (.txqService s.sendWindowOpen) with sendWindowOpen := true }
    else s.emit (.txqService s.sendWindowOpen)
  else s

/-! ### The instructions -/

/-- TICK, `ev` 2 (R200, R222): count, then service the window. -/
def execTick (t : Time) (s : State) : Host.Outcome State Fault Refusal :=
  if s.halted then .next s else .next (serviceWindow t (tickCount s))

/-- TICKCNT (R201). -/
def execTickcnt (s : State) : Host.Outcome State Fault Refusal := .next (tickCount s)

/-- WINSVC (R204). -/
def execWinsvc (t : Time) (s : State) : Host.Outcome State Fault Refusal := .next (serviceWindow t s)

end Sys2Proof.Machine
end

