-- ==== Sys2Proof/Machine/Dispatch.lean ====
section
/-! DEFINITION. The dispatch: one arm for each operation of the table. -/

namespace Sys2Proof.Machine

def exec (i : Instr) (s : State) : Host.Outcome State Fault Refusal :=
  match i with
  | .reset t => Sys2Proof.Machine.execReset t s
  | .noEvent => Sys2Proof.Machine.execNoEvent s
  | .rxbyte b t => Sys2Proof.Machine.execRxbyte b t s
  | .tick t => Sys2Proof.Machine.execTick t s
  | .infotmr => Sys2Proof.Machine.execInfotmr s
  | .rxfault => Sys2Proof.Machine.execRxfault s
  | .cdcPoll f => Sys2Proof.Machine.execCdcPoll f s
  | .cdcInforeq f => Sys2Proof.Machine.execCdcInforeq f s
  | .cdcEnter f => Sys2Proof.Machine.execCdcEnter f s
  | .cdcStop f => Sys2Proof.Machine.execCdcStop f s
  | .cdcPause f => Sys2Proof.Machine.execCdcPause f s
  | .cdcStart f => Sys2Proof.Machine.execCdcStart f s
  | .cdcDiskchg f => Sys2Proof.Machine.execCdcDiskchg f s
  | .cdcOutkey f => Sys2Proof.Machine.execCdcOutkey f s
  | .cdcTmrcancel f => Sys2Proof.Machine.execCdcTmrcancel f s
  | .hext x f => Sys2Proof.Machine.execHext x f s
  | .resync t => Sys2Proof.Machine.execResync t s
  | .append b => Sys2Proof.Machine.execAppend b s
  | .complete => Sys2Proof.Machine.execComplete s
  | .checksum f => Sys2Proof.Machine.execChecksum f s
  | .dispatch f => Sys2Proof.Machine.execDispatch f s
  | .log f => Sys2Proof.Machine.execLog f s
  | .cdcheur f => Sys2Proof.Machine.execCdcheur f s
  | .radiocnt f => Sys2Proof.Machine.execRadiocnt f s
  | .lookup f => Sys2Proof.Machine.execLookup f s
  | .fire e f => Sys2Proof.Machine.execFire e f s
  | .unmatched f => Sys2Proof.Machine.execUnmatched f s
  | .inforeply => Sys2Proof.Machine.execInforeply s
  | .cdcentry => Sys2Proof.Machine.execCdcentry s
  | .announce => Sys2Proof.Machine.execAnnounce s
  | .tickcnt => Sys2Proof.Machine.execTickcnt s
  | .winsvc t => Sys2Proof.Machine.execWinsvc t s
  | .ruleRotary rot ck => Sys2Proof.Machine.execRuleRotary rot ck s

end Sys2Proof.Machine
end

