-- ==== Sys2Proof/Machine/Step.lean ====
section
/-! DEFINITION. One step: the next word at the port is taken, decoded and applied whole (R2, R69). -/

namespace Sys2Proof.Machine

/-- One event. A reserved event code is ignored (R92); every other word is the operation it decodes to. -/
def step (s : State) : Host.Outcome State Fault Refusal :=
  match decodePort (nextWord s.inbox).1 with
  | .ok i => exec i (s.took (nextWord s.inbox).2)
  | .error _ => ignoreWord (s.took (nextWord s.inbox).2)

/-- The state in which the next step runs the operation of a table word (log 12). -/
def State.withFetchWord (s : State) (nbits w : Nat) : State := placeTableWord nbits w s

end Sys2Proof.Machine
end

