-- ==== Sys2Proof/Machine/Trace.lean ====
section
/-! DEFINITION. The pseudo-operations of the trace syntax (30_encoding.md R98, R99) as port words, one instant each, and
the duty of the environment on timestamps (R15, R235). -/

namespace Sys2Proof.Machine

/-- `RX(b, t)` (R98). -/
def rx (b : Byte) (t : Time) : List PortWord := [.ev 1 b t]

/-- `FEED(F, t0, dt)` (R99): the bytes of `F` in order, `dt` ms apart. -/
def feed : Frame → Time → Time → List (List PortWord)
  | [], _, _ => []
  | b :: f, t, dt => rx b t :: feed f (t + dt) dt

/-- `TICKS(n, t0)` (R99): `n` ticks, 50 ms apart (`TICK_MS`, R7). -/
def ticks : Nat → Time → List (List PortWord)
  | 0, _ => []
  | n + 1, t => [.ev 2 0 t] :: ticks n (t + 50)

/-- The timestamp of a word, where it has one (R84). -/
def wordTime : PortWord → Option Time
  | .rst t => some t
  | .ev code _ now => if code = 1 ∨ code = 2 then some now else none

/-- R15: timestamps never decrease from one word to the next, starting at `t`. A premise on the environment; the machine
does not test it (log 16). -/
def timesRise : Time → List PortWord → Bool
  | _, [] => true
  | t, w :: ws =>
    match wordTime w with
    | some u => t.toNat ≤ u.toNat && timesRise u ws
    | none => timesRise t ws

end Sys2Proof.Machine
end

