-- ==== Sys2Proof/Safety.lean ====
section
/-! DEFINITION. What counts as a well-kept state and a safe run: the invariants of 10_state.md R43, the timer discipline of
70_reset_and_hazards.md R256, and the halted state as the block's one fault state (60_exceptions.md R222). -/

namespace Sys2Proof.Machine

/-- R43, I5: the buffer holds a complete frame. COMPLETE leaves no such buffer behind. -/
def holdsWholeFrame (s : State) : Prop :=
  Config.minFrame ≤ s.len ∧ ∃ b, Memory.read s.buf 1 = some b ∧ totalLength b = s.len

/-- The state invariants of R43 that speak of one state (I1, I2, I3, I5, I7), with the canonical form of memory and the
range of the radio counter (R33). -/
structure Inv (s : State) : Prop where
  /-- the buffer's canonical form -/
  bufWf     : Memory.wf s.buf = true
  /-- I1 -/
  lenLe     : s.len ≤ Config.cap
  /-- I2 -/
  tickLt    : s.tick600 < announceTicks
  /-- R33 -/
  radioLe   : s.radioMessageCount ≤ radioCountMax
  /-- I3: every slot below LEN has been written -/
  written   : ∀ a, a < s.len → ∃ b, Memory.read s.buf a = some b
  /-- I5 -/
  noWhole   : ¬ holdsWholeFrame s
  /-- I7 -/
  timerUsed : s.infoLive = true → infoTimerUsed s = true

/-- R256: follow the info timer through a list of actions, from live or not live. Arming a live timer or cancelling one
that is not live breaks the discipline. -/
def timerAfter : Bool → List Action → Option Bool
  | live, [] => some live
  | live, .tmrArm _ :: as => if live then none else timerAfter true as
  | live, .tmrCancel :: as => if live then timerAfter false as else none
  | live, .log _ _ :: as => timerAfter live as
  | live, .key _ :: as => timerAfter live as
  | live, .cmd _ :: as => timerAfter live as
  | live, .hext _ _ :: as => timerAfter live as
  | live, .rxnote _ :: as => timerAfter live as
  | live, .tx _ :: as => timerAfter live as
  | live, .unmute :: as => timerAfter live as
  | live, .video _ :: as => timerAfter live as
  | live, .txqService _ :: as => timerAfter live as
  | live, .halt _ :: as => timerAfter live as

/-- `k` steps, stopping at the first fault or refusal. -/
def runSteps : Nat → State → Host.Outcome State Fault Refusal
  | 0, s => .next s
  | k + 1, s =>
    match step s with
    | .next u => runSteps k u
    | .fault r => .fault r
    | .refused r => .refused r

/-- R222: "a model treats halted = 1 as a fault state, never as a final state". -/
def inFaultState (s : State) : Bool := s.halted

end Sys2Proof.Machine
end

