-- ==== Sys2Proof/Certificates/Slice0/Obligations.lean ====
section
/-! DEFINITION. The statements for the provers, each a `def Obligations.<Name> : Prop`. Rule numbers are those of spec/.
Actions of an event stand at the end of `actions` (log 3). An equation `exec i s = .next { s with … }` says every register,
flag, counter, strap, slot of the buffer and table that it does not name is unchanged: it is the instruction's frame too. -/

open Sys2Proof Sys2Proof.Machine

/-! ### Events -/

/-- R85: the port's event codes, and that code 0 does nothing. Codes 5 to 7 are rejected by name (and ignored, see
ReservedEventIsIgnored). -/
def Obligations.EventCodesAndNoEvent : Prop :=
  (∀ (d : Byte) (t : Time),
    decodePort (.ev 0 d t) = .ok .noEvent ∧ decodePort (.ev 1 d t) = .ok (.rxbyte d t) ∧
    decodePort (.ev 2 d t) = .ok (.tick t) ∧ decodePort (.ev 3 d t) = .ok .infotmr ∧
    decodePort (.ev 4 d t) = .ok .rxfault ∧
    ∀ c : BitVec 3, 5 ≤ c.toNat → decodePort (.ev c d t) = .error (.reservedEvent c)) ∧
  ∀ s : State, exec .noEvent s = .next s

/-- R92, first row: a step that finds a reserved event code takes it off the port, changes nothing else and emits nothing. -/
def Obligations.ReservedEventIsIgnored : Prop :=
  ∀ (s : State) (c : BitVec 3) (d : Byte) (t : Time) (rest : List (List PortWord)),
    nextWord s.inbox = (.ev c d t, rest) → 5 ≤ c.toNat → step s = .next { s with inbox := rest }

/-- R240: RESET writes every element it names, samples the straps from their inputs, emits no action, and applies halted or
not; while halted every other event does nothing; no other event has its priority. Of the buffer it says nothing, as R240
does. The strap inputs are `strapPins` (R36, log 7). -/
def Obligations.ResetSetsEveryElement : Prop :=
  (∀ (s : State) (t : Time), decodePort (.rst t) = .ok (.reset t) ∧ ∃ m : Memory,
    exec (.reset t) s =
      .next { s with buf := m, len := 0, lastRx := t, sendWindowOpen := false, keyboardBlocked := true, cdPolled := false
                     cdPlay := .none, radioMessageCount := 0, tick600 := 0, infoLive := false, halted := false
                     straps := s.strapPins }) ∧
  (∀ s : State, s.halted = true → ∀ (c : BitVec 3) (d : Byte) (t : Time) (i : Instr),
    decodePort (.ev c d t) = .ok i → exec i s = .next s) ∧
  ∀ (t u : Time) (c : BitVec 3) (d : Byte), portPriority (.rst t) < portPriority (.ev c d u)

/-- R44: the state right after reset holds the values of R44. The time 0, the strap levels and the tables are the model's
choice (log 6, log 7, log 19) and are not stated. -/
def Obligations.ResetStateHoldsResetValues : Prop :=
  State.reset.len = 0 ∧ State.reset.sendWindowOpen = false ∧ State.reset.keyboardBlocked = true ∧
  State.reset.cdPolled = false ∧ State.reset.cdPlay = .none ∧ State.reset.radioMessageCount = 0 ∧
  State.reset.tick600 = 0 ∧ State.reset.infoLive = false ∧ State.reset.halted = false ∧
  State.reset.straps = State.reset.strapPins ∧ playing State.reset = false ∧ cdView State.reset = .notPolled ∧
  ∀ a, Memory.read State.reset.buf a = none

/-- R222: RXFAULT halts and emits HALT(IOFAIL), all else kept; and while halted no event but RESET changes anything or
emits anything. -/
def Obligations.RxfaultHaltsAndHaltedIgnoresEvents : Prop :=
  (∀ (d : Byte) (t : Time), decodePort (.ev 4 d t) = .ok .rxfault) ∧
  (∀ s : State, s.halted = false →
    exec .rxfault s = .next { s with halted := true, actions := s.actions ++ [.halt .ioFail] }) ∧
  ∀ s : State, s.halted = true →
    exec .rxfault s = .next s ∧ exec .infotmr s = .next s ∧ exec .noEvent s = .next s ∧
    (∀ t, exec (.tick t) s = .next s) ∧ ∀ b t, exec (.rxbyte b t) s = .next s

/-- R43 I6: a step of a halted block changes only its input queue, unless the word it takes is the reset input. -/
def Obligations.HaltedStepOnlyTakesItsWord : Prop :=
  ∀ (s : State) (w : PortWord) (rest : List (List PortWord)), s.halted = true → nextWord s.inbox = (w, rest) →
    (∀ t, w ≠ .rst t) → step s = .next { s with inbox := rest }

/-! ### The step and the port -/

/-- A step runs the instruction its word decodes to, on the state with that word taken off the port. -/
def Obligations.StepRunsTheDecodedEvent : Prop :=
  ∀ (s : State) (w : PortWord) (rest : List (List PortWord)) (i : Instr),
    nextWord s.inbox = (w, rest) → decodePort w = .ok i → step s = exec i { s with inbox := rest }

/-- R225 with the priorities of R224: of the words ready together, the one with the smallest priority number is presented,
the earliest of them if several have it; the others stay pending in their order. A port with nothing offered presents
no event (log 1). Where code 0 and the reserved codes stand in the order is the model's choice (log 2). -/
def Obligations.PortPresentsTheHighestPriority : Prop :=
  (∀ (before after : List PortWord) (w : PortWord) (later : List (List PortWord)),
    (∀ x ∈ before, portPriority w < portPriority x) → (∀ x ∈ after, portPriority w ≤ portPriority x) →
    nextWord ((before ++ w :: after) :: later) =
      (w, if before ++ after = [] then later else (before ++ after) :: later)) ∧
  (∀ (t t1 t3 : Time) (d d1 d2 d3 : Byte) (t0 t2 : Time),
    portPriority (.rst t) < portPriority (.ev 4 d t0) ∧ portPriority (.ev 4 d t0) < portPriority (.ev 1 d1 t1) ∧
    portPriority (.ev 1 d1 t1) < portPriority (.ev 3 d2 t2) ∧ portPriority (.ev 3 d2 t2) < portPriority (.ev 2 d3 t3)) ∧
  nextWord [] = (.ev 0 0 0, [])

/-! ### FrameAssembler -/

/-- R111: RXBYTE is RESYNC, then the time stamp and the closing of the window, then APPEND, then COMPLETE; while halted it
does nothing. -/
def Obligations.RxbyteRunsItsStepsInOrder : Prop :=
  ∀ (s : State) (b : Byte) (t : Time),
    decodePort (.ev 1 b t) = .ok (.rxbyte b t) ∧
    (s.halted = true → exec (.rxbyte b t) s = .next s) ∧
    (s.halted = false → ∃ s1 s2, exec (.resync t) s = .next s1 ∧
      exec (.append b) { s1 with lastRx := t, sendWindowOpen := false } = .next s2 ∧
      exec (.rxbyte b t) s = exec .complete s2)

/-- R112: a gap of more than 64 ms empties the position register and nothing else; a gap of 64 ms or less does nothing. -/
def Obligations.ResyncDropsAfterLongGap : Prop :=
  ∀ (s : State) (t : Time),
    exec (.resync t) s = .next (if 64 < (t - s.lastRx).toNat then { s with len := 0 } else s)

/-- R113: the byte goes to slot LEN, or to slot 63 when the buffer is full; LEN counts up to 64 and sticks; every other slot
and every other element is unchanged. -/
def Obligations.AppendStoresOneByteBounded : Prop :=
  ∀ (s : State) (b : Byte), s.len ≤ 64 → ∃ m : Memory,
    exec (.append b) s = .next { s with buf := m, len := if s.len < 64 then s.len + 1 else 64 } ∧
    m.read (if s.len < 64 then s.len else 63) = some b ∧
    ∀ a, a ≠ (if s.len < 64 then s.len else 63) → m.read a = s.buf.read a

/-- R114: with the slots 0 to LEN-1 holding the bytes `f`, COMPLETE clears LEN and dispatches `f` exactly when `f` has at
least 4 bytes and its length byte plus 2 is its length; otherwise it changes nothing. The checksum plays no part. -/
def Obligations.CompleteEmitsExactlyTheAccumulatedBytes : Prop :=
  ∀ (s : State) (f : Frame), s.len ≤ 64 → f.length = s.len → (∀ a, a < s.len → s.buf.read a = f[a]?) →
    ((4 ≤ f.length ∧ ∃ lenb, f[1]? = some lenb ∧ lenb.toNat + 2 = f.length) →
      ∃ u, exec (.dispatch f) { s with len := 0 } = .next u ∧ exec .complete s = .next u) ∧
    (¬ (4 ≤ f.length ∧ ∃ lenb, f[1]? = some lenb ∧ lenb.toNat + 2 = f.length) → exec .complete s = .next s)

/-- RXBYTE that completes no frame: the byte is stored, the time stamped, the window closed, no action emitted. `l` is LEN
after the gap test. -/
def Obligations.RxbyteStoresAndWaits : Prop :=
  ∀ (s : State) (b : Byte) (t : Time) (l : Nat), s.halted = false → s.len ≤ 64 →
    l = (if 64 < (t - s.lastRx).toNat then 0 else s.len) →
    (l < 3 ∨ 3 ≤ l ∧ ∃ lenb, s.buf.read 1 = some lenb ∧ lenb.toNat + 2 ≠ min (l + 1) 64) →
    ∃ m : Memory,
      exec (.rxbyte b t) s = .next { s with buf := m, len := min (l + 1) 64, lastRx := t, sendWindowOpen := false } ∧
      m.read (min l 63) = some b ∧ ∀ a, a ≠ min l 63 → m.read a = s.buf.read a

/-- RXBYTE whose byte completes the frame `f ++ [b]`: the whole frame is dispatched from a state with the byte stored, the
time stamped, the window closed and LEN cleared. -/
def Obligations.RxbyteDispatchesTheCompletedFrame : Prop :=
  ∀ (s : State) (b : Byte) (t : Time) (f : Frame) (lenb : Byte), s.halted = false →
    (t - s.lastRx).toNat ≤ 64 → f.length = s.len → 3 ≤ s.len → s.len ≤ 63 →
    (∀ a, a < s.len → s.buf.read a = f[a]?) → f[1]? = some lenb → lenb.toNat + 2 = s.len + 1 →
    ∃ (m : Memory) (u : State),
      exec (.dispatch (f ++ [b])) { s with buf := m, len := 0, lastRx := t, sendWindowOpen := false } = .next u ∧
      exec (.rxbyte b t) s = .next u ∧ m.read s.len = some b ∧ ∀ a, a ≠ s.len → m.read a = s.buf.read a

/-- R115 and R121: whatever a received byte leads to, afterwards the window is closed, `lastRx` is the byte's time, and the
tick counter, the halted flag and the straps are as before. -/
def Obligations.RxbyteAlwaysStampsAndClosesTheWindow : Prop :=
  ∀ (s u : State) (b : Byte) (t : Time), s.halted = false → exec (.rxbyte b t) s = .next u →
    u.sendWindowOpen = false ∧ u.lastRx = t ∧ u.tick600 = s.tick600 ∧ u.halted = false ∧ u.straps = s.straps

/-- R93: while the length byte held in slot 1 is 0, 1 or above 62, no byte without a long gap before it completes a frame:
bytes pile up, the length sticks at 64, slot 1 keeps its byte and nothing is emitted. -/
def Obligations.ImpossibleLengthNeverCompletes : Prop :=
  ∀ (s : State) (b lenb : Byte) (t : Time), s.halted = false → 2 ≤ s.len → s.len ≤ 64 → s.buf.read 1 = some lenb →
    (lenb.toNat < 2 ∨ 62 < lenb.toNat) → (t - s.lastRx).toNat ≤ 64 →
    ∃ u, exec (.rxbyte b t) s = .next u ∧ u.actions = s.actions ∧ u.len = min (s.len + 1) 64 ∧ u.buf.read 1 = some lenb

/-- The bytes of a frame, offered one instant each with no gap over 64 ms to an empty assembler, end in exactly one dispatch
of exactly those bytes, after as many steps as bytes; the assembler is then empty again, so a frame offered next starts
clean (R116, R117). Holds from every running state with LEN = 0. The slots then hold the frame over what the buffer held
before, stale bytes now that LEN is 0 (R21). -/
def Obligations.FedFrameIsDispatchedWhole : Prop :=
  ∀ (s : State) (f : Frame) (lenb : Byte) (t0 dt : Time) (later : List (List PortWord)),
    s.halted = false → s.len = 0 → 4 ≤ f.length → f.length ≤ 64 → f[1]? = some lenb → lenb.toNat + 2 = f.length →
    dt.toNat ≤ 64 → s.inbox = feed f t0 dt ++ later →
    ∃ u : State, runSteps f.length s = .next u ∧ u.len = 0 ∧ u.inbox = later ∧
      (∀ a, u.buf.read a = if a < f.length then f[a]? else s.buf.read a) ∧
      exec (.dispatch f) { s with buf := layBytes s.buf 0 f, len := 0
                                  lastRx := t0 + BitVec.ofNat 32 (f.length - 1) * dt
                                  sendWindowOpen := false, inbox := later } = .next u

/-! ### ChecksumValidator -/

/-- R130: the verdict on a non-empty sequence is whether the exclusive-or of all bytes but the last equals the last, which
is whether the exclusive-or of all bytes is 0; CHECKSUM writes no state of the block. The verdict is handed back in the
model's own field `result` (log 4). -/
def Obligations.ChecksumComparesTheFold : Prop :=
  ∀ (s : State) (front : List Byte) (ck : Byte),
    exec (.checksum (front ++ [ck])) s = .next { s with result := .verdict (front.foldl (· ^^^ ·) 0 == ck) } ∧
    (front.foldl (· ^^^ ·) 0 = ck ↔ (front ++ [ck]).foldl (· ^^^ ·) 0 = 0)

/-- For the empty sequence R130 defines nothing; CHECKSUM, LOG and DISPATCH of it are refused by name (the model's choice,
log 15). -/
def Obligations.EmptySequenceIsRefused : Prop :=
  ∀ s : State, exec (.checksum []) s = .refused .emptyFrame ∧ exec (.log []) s = .refused .emptyFrame ∧
    exec (.dispatch []) s = .refused .emptyFrame

/-- R132: of two non-empty sequences of the same length, the first valid, the second is valid exactly when for each of the 8
bit positions the number of bytes in which that bit differs is even. So a single flipped bit is always detected. -/
def Obligations.ChecksumDetectsOddBitFlips : Prop :=
  (∀ (s u v : State) (f g : Frame), f ≠ [] → f.length = g.length →
    exec (.checksum f) s = .next u → u.result = .verdict true → exec (.checksum g) s = .next v →
    (v.result = .verdict true ↔
      ∀ j, j < 8 → ((List.zip f g).countP fun p => p.1.getLsbD j != p.2.getLsbD j) % 2 = 0)) ∧
  ∀ (s u v : State) (f : Frame) (k j : Nat) (b : Byte), f[k]? = some b → j < 8 →
    exec (.checksum f) s = .next u → u.result = .verdict true →
    exec (.checksum (f.set k (b ^^^ BitVec.twoPow 8 j))) s = .next v → v.result = .verdict false

/-! ### EventDispatcher -/

/-- R140: DISPATCH is LOG, CDCHEUR, RADIOCNT and LOOKUP in that order, then UNMATCHED when no entry matched and FIRE of the
entry found otherwise. Log 4: LOOKUP run on its own hands its index back in `result`. -/
def Obligations.DispatchRunsItsStepsInOrder : Prop :=
  ∀ (s : State) (f : Frame), f ≠ [] → ∃ (s1 s2 s3 u : State) (r : Option Nat),
    exec (.log f) s = .next s1 ∧ exec (.cdcheur f) s1 = .next s2 ∧ exec (.radiocnt f) s2 = .next s3 ∧
    exec (.lookup f) s3 = .next { s3 with result := .entry r } ∧ exec (.dispatch f) s = .next u ∧
    (r = none → exec (.unmatched f) s3 = .next u) ∧
    ∀ i, r = some i → ∃ e, s.params.rules[i]? = some e ∧ exec (.fire e f) s3 = .next u

/-- R142: LOG emits the frame with `corrupt` = not the checksum verdict, and changes nothing else. -/
def Obligations.LogReportsTheVerdict : Prop :=
  ∀ (s : State) (front : List Byte) (ck : Byte),
    exec (.log (front ++ [ck])) s =
      .next { s with actions := s.actions ++ [.log (front ++ [ck]) (front.foldl (· ^^^ ·) 0 != ck)] }

/-- R143: CDCHEUR runs CDCENTRY once when one of the three shapes matches (exact length and every condition), and does
nothing otherwise. -/
def Obligations.HeuristicEntersOnAnyShape : Prop :=
  ∀ (s : State) (f : Frame),
    ((∃ sh, (sh = s.params.shapes.s0 ∨ sh = s.params.shapes.s1 ∨ sh = s.params.shapes.s2) ∧ f.length = sh.slen ∧
        ∀ c ∈ sh.conds, f[c.off]? = some c.val) →
      ∃ u, exec .cdcentry s = .next u ∧ exec (.cdcheur f) s = .next u) ∧
    ((∀ sh, (sh = s.params.shapes.s0 ∨ sh = s.params.shapes.s1 ∨ sh = s.params.shapes.s2) → f.length = sh.slen →
        ∃ c ∈ sh.conds, f[c.off]? ≠ some c.val) →
      exec (.cdcheur f) s = .next s)

/-- R145: a frame whose source byte is the radio's address counts one, saturating at 0xFFFF; any other changes nothing. -/
def Obligations.RadioFramesAreCounted : Prop :=
  ∀ (s : State) (f : Frame),
    (f[0]? = some s.params.radioAddr →
      exec (.radiocnt f) s = .next { s with radioMessageCount := min (s.radioMessageCount + 1) 0xFFFF }) ∧
    (f[0]? ≠ some s.params.radioAddr → exec (.radiocnt f) s = .next s)

/-- R146, R88: LOOKUP answers the least index whose entry's pattern is no longer than the frame and equals its first bytes,
and none when no entry's is. It writes no state of the block (log 4: the answer stands in `result`). -/
def Obligations.LookupFindsTheFirstMatch : Prop :=
  ∀ (s : State) (f : Frame), ∃ r : Option Nat, exec (.lookup f) s = .next { s with result := .entry r } ∧
    (∀ i, r = some i ↔ ∃ e, s.params.rules[i]? = some e ∧
      (e.pfx.length ≤ f.length ∧ ∀ k, k < e.pfx.length → e.pfx[k]? = f[k]?) ∧
      ∀ j, j < i → ∀ e', s.params.rules[j]? = some e' →
        ¬ (e'.pfx.length ≤ f.length ∧ ∀ k, k < e'.pfx.length → e'.pfx[k]? = f[k]?)) ∧
    (r = none ↔ ∀ e ∈ s.params.rules, ¬ (e.pfx.length ≤ f.length ∧ ∀ k, k < e.pfx.length → e.pfx[k]? = f[k]?))

/-- R147: FIRE emits the key unless the keyboard is blocked when it would be emitted, then the command, blocked or not,
and then runs the handler, if the entry has one, on the state so reached. -/
def Obligations.FireAppliesKeyCommandHandler : Prop :=
  ∀ (s : State) (e : RuleEntry) (f : Frame) (ks cs : List Action),
    ks = (if s.keyboardBlocked then [] else e.key.toList.map Action.key) → cs = e.cmd.toList.map Action.cmd →
    (e.handler = .noHandler → exec (.fire e f) s = .next { s with actions := s.actions ++ ks ++ cs }) ∧
    ∀ i, e.handler.toInstr f = .ok i → ∃ u, exec i { s with actions := s.actions ++ ks ++ cs } = .next u ∧
      exec (.fire e f) s = .next u

/-- R151: with two matching entries the earlier fires and the later is never evaluated: LOOKUP answers an index at most the
earlier one's, and whatever entry stood in the later one's place, the dispatch would do the same. -/
def Obligations.ShadowedEntryHasNoEffect : Prop :=
  ∀ (s : State) (f : Frame) (i j : Nat) (e e' new : RuleEntry), f ≠ [] → i < j →
    s.params.rules[i]? = some e → s.params.rules[j]? = some e' →
    e.pfx.length ≤ f.length → f.take e.pfx.length = e.pfx → e'.pfx.length ≤ f.length → f.take e'.pfx.length = e'.pfx →
    (∃ k, k ≤ i ∧ exec (.lookup f) s = .next { s with result := .entry (some k) }) ∧
    ∃ u, exec (.dispatch f) s = .next u ∧
      exec (.dispatch f) { s with params := { s.params with rules := s.params.rules.set j new } } =
        .next { u with params := { s.params with rules := s.params.rules.set j new } }

/-- R148, R149: an external handler gets its id, 0x80 to 0xFF, and the frame, and nothing comes back; an unmatched frame is
handed on as RXNOTE. Neither changes anything else. -/
def Obligations.ExternalAndUnmatchedOnlyEmit : Prop :=
  ∀ (s : State) (x : BitVec 7) (f : Frame),
    (decodeHid (BitVec.ofNat 8 (128 + x.toNat))).bind (Handler.toInstr f) = .ok (.hext x f) ∧
    exec (.hext x f) s = .next { s with actions := s.actions ++ [.hext (BitVec.ofNat 8 (128 + x.toNat)) f] } ∧
    exec (.unmatched f) s = .next { s with actions := s.actions ++ [.rxnote f] }

/-- R153: the actions of one complete frame: LOG, then at most one VIDEO(PI), then RXNOTE alone, or at most one KEY, at
most one CMD and the handler's actions, none of which is a LOG, KEY, CMD, RXNOTE, TXQ_SERVICE or HALT. -/
def Obligations.DispatchActionShape : Prop :=
  ∀ (s : State) (f : Frame), f ≠ [] → ∃ (u : State) (c : Bool) (v : List Action) (rest : List Action),
    exec (.dispatch f) s = .next u ∧ u.actions = s.actions ++ (.log f c :: (v ++ rest)) ∧
    (v = [] ∨ v = [.video .pi]) ∧
    (rest = [.rxnote f] ∨ ∃ ks cs hs : List Action, rest = ks ++ cs ++ hs ∧
      (ks = [] ∨ ∃ k, ks = [.key k]) ∧ (cs = [] ∨ ∃ k, cs = [.cmd k]) ∧
      ∀ a ∈ hs, match a with
        | .log _ _ => False | .key _ => False | .cmd _ => False | .rxnote _ => False
        | .txqService _ => False | .halt _ => False
        | .hext _ g => g = f | .tx _ => True | .tmrArm _ => True | .tmrCancel => True | .unmute => True | .video _ => True)

/-- R218: a matched poll is answered and a matched stop command stops, whatever the frame's checksum says. -/
def Obligations.CorruptCommandStillActs : Prop :=
  ∀ (s : State) (f : Frame) (i : Nat) (e : RuleEntry), f ≠ [] →
    s.params.rules[i]? = some e → e.pfx.length ≤ f.length → f.take e.pfx.length = e.pfx →
    (∀ j, j < i → ∀ e', s.params.rules[j]? = some e' → ¬ (e'.pfx.length ≤ f.length ∧ f.take e'.pfx.length = e'.pfx)) →
    ∃ u as, exec (.dispatch f) s = .next u ∧
      (e.handler = .cdcPoll → u.cdPolled = true ∧ u.actions = as ++ [.tx .present]) ∧
      (e.handler = .cdcStop → u.cdPlay = .stopped ∧ u.actions = as ++ [.tx .stopped])

/-- R89: the rotary frame `F0 04 3B 49` with its rotary byte and its checksum byte is a complete frame: RULE_ROTARY is the
dispatch of those six bytes. Where no shape matches it and the first matching entry has an external handler and neither
key nor command, the block only logs it and passes it out (log 13). -/
def Obligations.RotaryFrameIsPassedOut : Prop :=
  ∀ (s : State) (rot ck : Byte) (f : Frame), f = [0xF0, 0x04, 0x3B, 0x49, rot, ck] →
    (∃ u, exec (.dispatch f) s = .next u ∧ exec (.ruleRotary rot ck) s = .next u) ∧
    ∀ (e : RuleEntry) (es : List RuleEntry) (x : BitVec 7),
      s.params.rules = e :: es → e.pfx = [0xF0, 0x04, 0x3B, 0x49] → e.key = none → e.cmd = none → e.handler = .ext x →
      anyShapeMatches s.params.shapes f = false → s.params.radioAddr ≠ 0xF0 → ∃ c,
        exec (.ruleRotary rot ck) s =
          .next { s with actions := s.actions ++ [.log f c, .hext (BitVec.ofNat 8 (128 + x.toNat)) f] }

/-! ### CdChangerEmulator -/

/-- R166, R169, R170, R171: every poll is answered and recorded; stop, pause and start send their status frame and set the
play state, from every state. -/
def Obligations.PollStopPauseStart : Prop :=
  ∀ (s : State) (f : Frame),
    [0x01, 0x04, 0x05, 0x06].map (fun hid => (decodeHid hid).bind (Handler.toInstr f)) =
      [.ok (.cdcPoll f), .ok (.cdcStop f), .ok (.cdcPause f), .ok (.cdcStart f)] ∧
    exec (.cdcPoll f) s = .next { s with actions := s.actions ++ [.tx .present], cdPolled := true } ∧
    exec (.cdcStop f) s = .next { s with actions := s.actions ++ [.tx .stopped], cdPlay := .stopped } ∧
    exec (.cdcPause f) s = .next { s with actions := s.actions ++ [.tx .paused], cdPlay := .paused } ∧
    exec (.cdcStart f) s = .next { s with actions := s.actions ++ [.tx .playing], cdPlay := .playing }

/-- R175: the status reply follows the play state; only the playing one un-mutes. -/
def Obligations.InfoReplyFollowsPlayState : Prop :=
  ∀ s : State,
    (s.cdPlay = .playing → exec .inforeply s = .next { s with actions := s.actions ++ [.tx .playing, .unmute] }) ∧
    (s.cdPlay = .paused → exec .inforeply s = .next { s with actions := s.actions ++ [.tx .paused] }) ∧
    (s.cdPlay = .stopped ∨ s.cdPlay = .none →
      exec .inforeply s = .next { s with actions := s.actions ++ [.tx .stopped] })

/-- R167: the info reply, then, with an interval configured, the cancel of a held timer and the arming of the new one. -/
def Obligations.InfoRequestRepliesThenRearms : Prop :=
  ∀ (s : State) (f : Frame), (decodeHid 0x02).bind (Handler.toInstr f) = .ok (.cdcInforeq f) ∧
    ∃ s1, exec .inforeply s = .next s1 ∧
      (s.straps.cdinfoIvl = 0 → exec (.cdcInforeq f) s = .next s1) ∧
      (s.straps.cdinfoIvl ≠ 0 → s.infoLive = false →
        exec (.cdcInforeq f) s =
          .next { s1 with actions := s1.actions ++ [.tmrArm s.straps.cdinfoIvl], infoLive := true }) ∧
      (s.straps.cdinfoIvl ≠ 0 → s.infoLive = true →
        exec (.cdcInforeq f) s =
          .next { s1 with actions := s1.actions ++ [.tmrCancel, .tmrArm s.straps.cdinfoIvl], infoLive := true })

/-- R176: a timer expiry repeats the info reply while a timer is live and is ignored otherwise, or while halted. -/
def Obligations.InfoTimerRepeatsTheReply : Prop :=
  (∀ (d : Byte) (t : Time), decodePort (.ev 3 d t) = .ok .infotmr) ∧ ∀ s : State,
    (s.halted = false → s.infoLive = true → ∃ u, exec .inforeply s = .next u ∧ exec .infotmr s = .next u) ∧
    (s.halted = true ∨ s.infoLive = false → exec .infotmr s = .next s)

/-- R177, R168: CDC-mode entry, from the recogniser or from a rule, unblocks the keyboard and sets PLAYING; with HWREV at
least 4 it requests the PI video source. -/
def Obligations.ModeEntryUnblocksAndPlays : Prop :=
  ∀ (s : State) (f : Frame),
    (s.straps.hwrev.toNat < 4 →
      exec .cdcentry s = .next { s with keyboardBlocked := false, cdPlay := .playing }) ∧
    (4 ≤ s.straps.hwrev.toNat →
      exec .cdcentry s =
        .next { s with keyboardBlocked := false, cdPlay := .playing, actions := s.actions ++ [.video .pi] }) ∧
    (decodeHid 0x03).bind (Handler.toInstr f) = .ok (.cdcEnter f) ∧
    ∃ u, exec .cdcentry s = .next u ∧ exec (.cdcEnter f) s = .next u

/-- R172: the disk-change notification is answered only if both offsets lie in the frame and the byte at the one is 0x4B
exclusive-or the byte at the other; otherwise nothing happens. -/
def Obligations.DiskChangeNeedsItsOwnCheck : Prop :=
  ∀ (s : State) (f : Frame),
    (decodeHid 0x07).bind (Handler.toInstr f) = .ok (.cdcDiskchg f) ∧
    ((∃ ck pay, f[s.params.dcCkOff]? = some ck ∧ f[s.params.dcPayOff]? = some pay ∧ ck = 0x4B ^^^ pay) →
      exec (.cdcDiskchg f) s = .next { s with actions := s.actions ++ [.tx .playing] }) ∧
    ((f[s.params.dcCkOff]? = none ∨ f[s.params.dcPayOff]? = none ∨
        ∃ ck pay, f[s.params.dcCkOff]? = some ck ∧ f[s.params.dcPayOff]? = some pay ∧ ck ≠ 0x4B ^^^ pay) →
      exec (.cdcDiskchg f) s = .next s)

/-- R173: an outside key re-blocks the keyboard and, with HWREV at least 4, requests the BMW video source. -/
def Obligations.OutsideKeyBlocksTheKeyboard : Prop :=
  ∀ (s : State) (f : Frame),
    (decodeHid 0x08).bind (Handler.toInstr f) = .ok (.cdcOutkey f) ∧
    (s.straps.hwrev.toNat < 4 → exec (.cdcOutkey f) s = .next { s with keyboardBlocked := true }) ∧
    (4 ≤ s.straps.hwrev.toNat →
      exec (.cdcOutkey f) s = .next { s with keyboardBlocked := true, actions := s.actions ++ [.video .bmw] })

/-- R174: the live timer is cancelled when the predicate holds of the frame, once; with no timer live, or the predicate
false, nothing happens. The predicate is held as the list of frames on which it is false (log 10). -/
def Obligations.TimerCancelIsNeverDoubled : Prop :=
  ∀ (s : State) (f : Frame),
    (decodeHid 0x09).bind (Handler.toInstr f) = .ok (.cdcTmrcancel f) ∧
    (f ∉ s.params.tmrCancelExcept → s.infoLive = true →
      exec (.cdcTmrcancel f) s = .next { s with actions := s.actions ++ [.tmrCancel], infoLive := false }) ∧
    (f ∈ s.params.tmrCancelExcept ∨ s.infoLive = false → exec (.cdcTmrcancel f) s = .next s)

/-- R178: the announcement is made, and the radio count cleared, only when the radio has not polled and has been heard
since the last announcement. -/
def Obligations.AnnounceOnlyUnpolledAndHeard : Prop :=
  ∀ s : State,
    (s.cdPolled = false → 0 < s.radioMessageCount →
      exec .announce s = .next { s with actions := s.actions ++ [.tx .announce], radioMessageCount := 0 }) ∧
    (s.cdPolled = true ∨ s.radioMessageCount = 0 → exec .announce s = .next s)

/-- R180: what each command does to the source's five-valued view: a poll takes NotPolled to Polled and leaves the other
four; start and mode entry lead to Playing, stop to Stopped, pause to Paused, from each of the five. -/
def Obligations.CdViewTransitions : Prop :=
  ∀ (s : State) (f : Frame), ∃ p q r v w : State,
    exec (.cdcPoll f) s = .next p ∧ cdView p = (if cdView s = .notPolled then .polled else cdView s) ∧
    exec (.cdcStart f) s = .next q ∧ cdView q = .playing ∧ exec (.cdcStop f) s = .next r ∧ cdView r = .stopped ∧
    exec (.cdcPause f) s = .next v ∧ cdView v = .paused ∧ exec (.cdcEnter f) s = .next w ∧ cdView w = .playing

/-! ### Tick family -/

/-- R200: TICK counts, then services the window; while halted it does nothing. -/
def Obligations.TickCountsThenServices : Prop :=
  ∀ (s : State) (t : Time),
    (∀ d, decodePort (.ev 2 d t) = .ok (.tick t)) ∧
    (s.halted = true → exec (.tick t) s = .next s) ∧
    (s.halted = false → ∃ s1 u, exec .tickcnt s = .next s1 ∧ exec (.winsvc t) s1 = .next u ∧ exec (.tick t) s = .next u)

/-- R201, R202: the tick counter counts; the count that would reach 600 becomes 0, and there, and only there, the
announcement is evaluated if `MK3_EN` is set. -/
def Obligations.TickCountWrapsAndAnnounces : Prop :=
  ∀ s : State,
    (s.tick600 ≠ 599 → exec .tickcnt s = .next { s with tick600 := s.tick600 + 1 }) ∧
    (s.tick600 = 599 → s.straps.mk3En = false → exec .tickcnt s = .next { s with tick600 := 0 }) ∧
    (s.tick600 = 599 → s.straps.mk3En = true →
      ∃ u, exec .announce { s with tick600 := 0 } = .next u ∧ exec .tickcnt s = .next u)

/-- R204: with line monitoring the queue is handed the flag as it was, and the flag is then set after at least 100 ms of
quiet with no frame mid-assembly; without line monitoring nothing happens. -/
def Obligations.WindowServiceThenOpens : Prop :=
  ∀ (s : State) (t : Time),
    (s.straps.mongpio = 0 → exec (.winsvc t) s = .next s) ∧
    (s.straps.mongpio ≠ 0 → 100 ≤ (t - s.lastRx).toNat → s.len = 0 →
      exec (.winsvc t) s =
        .next { s with actions := s.actions ++ [.txqService s.sendWindowOpen], sendWindowOpen := true }) ∧
    (s.straps.mongpio ≠ 0 → ((t - s.lastRx).toNat < 100 ∨ s.len ≠ 0) →
      exec (.winsvc t) s = .next { s with actions := s.actions ++ [.txqService s.sendWindowOpen] })

/-! ### Whole-machine rules -/

/-- R43, I1, I2, I3, I5, I7, with the buffer's canonical form and the counter's range: the invariant holds after every step
from every state in which it holds. -/
def Obligations.StepKeepsTheInvariant : Prop :=
  ∀ s u : State, Inv s → step s = .next u → Inv u

/-- The invariant holds right after reset. -/
def Obligations.ResetMeetsTheInvariant : Prop := Inv State.reset

/-- R215: from a state that meets the invariant, no word at the port, whatever its code, byte and time, can fault the block
or be refused: the step answers a next state. -/
def Obligations.NoEventStopsTheBlock : Prop :=
  ∀ s : State, Inv s → ∃ u, step s = .next u

/-- R36, R72, R235: no operation writes the tables and parameters, the strap inputs or the input queue, and none but RESET
writes the straps. -/
def Obligations.ConfigurationIsNeverWritten : Prop :=
  ∀ (i : Instr) (s u : State), exec i s = .next u →
    u.params = s.params ∧ u.strapPins = s.strapPins ∧ u.inbox = s.inbox ∧ ((∀ t, i ≠ .reset t) → u.straps = s.straps)

/-- R22: the only operations that change the buffer are APPEND and, through it, RXBYTE. APPEND writes its byte to slot LEN, or
to slot 63 when the buffer is full; RXBYTE writes its byte to that slot, LEN taken after the gap test, and while halted
writes nothing. Every other slot reads as before. RESET leaves the contents unspecified (log 8). -/
def Obligations.OnlyAppendWritesTheBuffer : Prop :=
  ∀ (i : Instr) (s u : State), exec i s = .next u →
    (∀ b, i = .append b →
      u.buf.read (if s.len < 64 then s.len else 63) = some b ∧
      ∀ a, a ≠ (if s.len < 64 then s.len else 63) → u.buf.read a = s.buf.read a) ∧
    (∀ b t, i = .rxbyte b t →
      (s.halted = true → u.buf = s.buf) ∧
      (s.halted = false → ∀ l, l = (if 64 < (t - s.lastRx).toNat then 0 else s.len) →
        u.buf.read (min l 63) = some b ∧ ∀ a, a ≠ min l 63 → u.buf.read a = s.buf.read a)) ∧
    ((∀ b, i ≠ .append b) → (∀ b t, i ≠ .rxbyte b t) → (∀ t, i ≠ .reset t) → u.buf = s.buf)

/-- R25, last row: every operation other than RESET, RXBYTE and its sub-operations leaves LEN unchanged. -/
def Obligations.OnlyTheAssemblerMovesLen : Prop :=
  ∀ (i : Instr) (s u : State), exec i s = .next u → (∀ t, i ≠ .reset t) → (∀ b t, i ≠ .rxbyte b t) →
    (∀ t, i ≠ .resync t) → (∀ b, i ≠ .append b) → i ≠ .complete → u.len = s.len

/-- R28: no operation but TICK and its step WINSVC opens the transmit window, and that only with line monitoring, 100 ms of
quiet and no frame mid-assembly. -/
def Obligations.OnlyTheTickOpensTheWindow : Prop :=
  ∀ (i : Instr) (s u : State), exec i s = .next u → s.sendWindowOpen = false → u.sendWindowOpen = true →
    ∃ t, (i = .tick t ∨ i = .winsvc t) ∧ s.straps.mongpio ≠ 0 ∧ 100 ≤ (t - s.lastRx).toNat ∧ s.len = 0

/-- R258, R180: after a poll `cdPolled` stays 1, and the play state never returns to NONE, until RESET. -/
def Obligations.PolledAndPlayedUntilReset : Prop :=
  ∀ (i : Instr) (s u : State), exec i s = .next u → (∀ t, i ≠ .reset t) →
    (s.cdPolled = true → u.cdPolled = true) ∧ (s.cdPlay ≠ .none → u.cdPlay ≠ .none)

/-- R256: in the actions any operation but RESET emits, the timer is never armed while live without a cancel first and
never cancelled while not live, and `infoLive` afterwards is whether it is live then. -/
def Obligations.TimerDisciplineHolds : Prop :=
  ∀ (i : Instr) (s u : State), exec i s = .next u → (∀ t, i ≠ .reset t) →
    ∃ new, u.actions = s.actions ++ new ∧ timerAfter s.infoLive new = some u.infoLive

/-- R181, R257: what a received byte leads to does not depend on the transmit window: the block never consults it before it
asks for a transmission. -/
def Obligations.RxbyteIgnoresTheWindow : Prop :=
  ∀ (s : State) (b : Byte) (t : Time) (w : Bool), s.halted = false →
    exec (.rxbyte b t) { s with sendWindowOpen := w } = exec (.rxbyte b t) s

/-- R15: only differences of time matter: received bytes and ticks with all times moved by the same amount give the same
actions and the same state, its `lastRx` moved too. -/
def Obligations.OnlyTimeDifferencesMatter : Prop :=
  ∀ (s u : State) (d t : Time) (b : Byte), s.halted = false →
    (exec (.rxbyte b t) s = .next u →
      exec (.rxbyte b (t + d)) { s with lastRx := s.lastRx + d } = .next { u with lastRx := u.lastRx + d }) ∧
    (exec (.tick t) s = .next u →
      exec (.tick (t + d)) { s with lastRx := s.lastRx + d } = .next { u with lastRx := u.lastRx + d })

/-! ### Encodings -/

/-- For every well-formed instruction that has an encoding, decoding the encoding gives the instruction back, with every
operand at every value; and what a code decodes to encodes to a code that decodes the same. -/
def Obligations.DecodeOfEncodeIsIdentity : Prop :=
  (∀ (i : Instr) (c : Code), i.wf = true → encode i = some c → decode c = .ok i) ∧
  ∀ (c : Code) (i : Instr), decode c = .ok i → i.wf = true ∧ ∃ c', encode i = some c' ∧ decode c' = .ok i

/-- R87: the handler ids. The ids 0x0A to 0x7F, and no others, are rejected; every other id is the id of the handler it
decodes to; bit 7 selects an external handler. -/
def Obligations.HandlerIdsAreExact : Prop :=
  (∀ b : Byte, (∃ h, decodeHid b = .ok h ∧ encodeHid h = b) ∨
    decodeHid b = .error (.reservedHandler b) ∧ 0x0A ≤ b.toNat ∧ b.toNat ≤ 0x7F) ∧
  (∀ h : Handler, decodeHid (encodeHid h) = .ok h) ∧
  [encodeHid .noHandler, encodeHid .cdcPoll, encodeHid .cdcInforeq, encodeHid .cdcEnter, encodeHid .cdcStop,
    encodeHid .cdcPause, encodeHid .cdcStart, encodeHid .cdcDiskchg, encodeHid .cdcOutkey, encodeHid .cdcTmrcancel] =
    [0x00, 0x01, 0x02, 0x03, 0x04, 0x05, 0x06, 0x07, 0x08, 0x09] ∧
  ∀ x : BitVec 7, (encodeHid (.ext x)).toNat = 0x80 + x.toNat

/-- R86, R90, R92: what the loaders take and what they refuse. A stored entry loads back as itself. A raw entry is refused
exactly when `PLEN` is above 16 or its `HID` is 0x0A to 0x7F; one that loads has the first `PLEN` bytes of `PREFIX`, its key
and command exactly where their valid bits are 1, and the handler of its id, whatever its unused bytes and absent fields
hold. A rule table is refused exactly when some entry of it is, and loads entry by entry in table order otherwise. A raw
shape is refused exactly when its length is not 4 to 64, it has more than 8 conditions or an offset is not below its length,
and loads as itself otherwise. A shape table loads exactly when it has three shapes and each of them loads. -/
def Obligations.TableEntriesLoadOrAreRefused : Prop :=
  (∀ e : RuleEntry, loadRule (storeRule e) = .ok e) ∧
  (∀ r : RawRule, (∃ err, loadRule r = .error err) ↔ 16 < r.plen.toNat ∨ (0x0A ≤ r.hid.toNat ∧ r.hid.toNat ≤ 0x7F)) ∧
  (∀ (r : RawRule) (e : RuleEntry), loadRule r = .ok e →
    e.pfx = r.pfx.toList.take r.plen.toNat ∧ e.pfx.length = r.plen.toNat ∧
    e.key = (if r.keyV then some r.key else none) ∧ e.cmd = (if r.cmdV then some r.cmd else none) ∧
    decodeHid r.hid = .ok e.handler) ∧
  (∀ rs : List RawRule, (∃ err, loadRules rs = .error err) ↔ ∃ r ∈ rs, ∃ err, loadRule r = .error err) ∧
  (∀ (rs : List RawRule) (es : List RuleEntry), loadRules rs = .ok es →
    es.length = rs.length ∧ ∀ (k : Nat) (r : RawRule), rs[k]? = some r → ∃ e, es[k]? = some e ∧ loadRule r = .ok e) ∧
  (∀ r : RawShape, (∃ err, loadShape r = .error err) ↔
    r.slen < 4 ∨ 64 < r.slen ∨ 8 < r.conds.length ∨ ∃ c ∈ r.conds, r.slen ≤ c.off) ∧
  (∀ (r : RawShape) (sh : Shape), loadShape r = .ok sh → sh.slen = r.slen ∧ sh.conds = r.conds) ∧
  ∀ (l : List RawShape) (t : ShapeTable), loadShapes l = .ok t ↔
    ∃ a b c, l = [a, b, c] ∧ loadShape a = .ok t.s0 ∧ loadShape b = .ok t.s1 ∧ loadShape c = .ok t.s2

/-- R81, R66: the frame built from a source, a destination and a payload of at most 60 bytes has its fields at the offsets
the wire format gives, a valid checksum, a length byte two below its length, and is cut off a byte stream whole. -/
def Obligations.WireFormatRoundTrip : Prop :=
  ∀ (src dst : Byte) (pay rest : List Byte) (f : Frame), pay.length ≤ 60 → f = wireFrame src dst pay →
    frameSrc f = some src ∧ frameDst f = some dst ∧ framePay f = pay ∧ f.length = pay.length + 4 ∧
    (∃ lenb, frameLenb f = some lenb ∧ lenb.toNat + 2 = f.length) ∧ f.foldl (· ^^^ ·) 0 = 0 ∧
    parseWire (f ++ rest) = .ok (f, rest)

/-- A few words as the operation table writes them decode to their operations. Sanity only. -/
def Obligations.TableWordsDecode : Prop :=
  decode (.port (.ev 1 0x68 1000)) = .ok (.rxbyte 0x68 1000) ∧ decode (.port (.ev 2 0 50)) = .ok (.tick 50) ∧
  decode (.handler 0x01 [0x68, 0x03, 0x18, 0x01, 0x72]) = .ok (.cdcPoll [0x68, 0x03, 0x18, 0x01, 0x72]) ∧
  decode (.frame [0xF0, 0x04, 0x3B, 0x49, 0x82, 0x04]) = .ok (.ruleRotary 0x82 0x04)
end

