-- ==== Sys2Proof/Laws/State.lean ====
section
/-! SUPPORT. One lemma per field of State for each shared update: what the update makes of the field, by rfl. -/

namespace Sys2Proof.Machine

/-! ### State.emit -/

@[simp] theorem emit_buf (s : State) (a : Action) : (s.emit a).buf = s.buf := rfl
@[simp] theorem emit_len (s : State) (a : Action) : (s.emit a).len = s.len := rfl
@[simp] theorem emit_lastRx (s : State) (a : Action) : (s.emit a).lastRx = s.lastRx := rfl
@[simp] theorem emit_sendWindowOpen (s : State) (a : Action) : (s.emit a).sendWindowOpen = s.sendWindowOpen := rfl
@[simp] theorem emit_keyboardBlocked (s : State) (a : Action) : (s.emit a).keyboardBlocked = s.keyboardBlocked := rfl
@[simp] theorem emit_cdPolled (s : State) (a : Action) : (s.emit a).cdPolled = s.cdPolled := rfl
@[simp] theorem emit_cdPlay (s : State) (a : Action) : (s.emit a).cdPlay = s.cdPlay := rfl
@[simp] theorem emit_radioMessageCount (s : State) (a : Action) : (s.emit a).radioMessageCount = s.radioMessageCount := rfl
@[simp] theorem emit_tick600 (s : State) (a : Action) : (s.emit a).tick600 = s.tick600 := rfl
@[simp] theorem emit_infoLive (s : State) (a : Action) : (s.emit a).infoLive = s.infoLive := rfl
@[simp] theorem emit_halted (s : State) (a : Action) : (s.emit a).halted = s.halted := rfl
@[simp] theorem emit_straps (s : State) (a : Action) : (s.emit a).straps = s.straps := rfl
@[simp] theorem emit_strapPins (s : State) (a : Action) : (s.emit a).strapPins = s.strapPins := rfl
@[simp] theorem emit_inbox (s : State) (a : Action) : (s.emit a).inbox = s.inbox := rfl
@[simp] theorem emit_actions (s : State) (a : Action) : (s.emit a).actions = s.actions ++ [a] := rfl
@[simp] theorem emit_result (s : State) (a : Action) : (s.emit a).result = s.result := rfl
@[simp] theorem emit_params (s : State) (a : Action) : (s.emit a).params = s.params := rfl

/-! ### State.took -/

@[simp] theorem took_buf (s : State) (rest : List (List PortWord)) : (s.took rest).buf = s.buf := rfl
@[simp] theorem took_len (s : State) (rest : List (List PortWord)) : (s.took rest).len = s.len := rfl
@[simp] theorem took_lastRx (s : State) (rest : List (List PortWord)) : (s.took rest).lastRx = s.lastRx := rfl
@[simp] theorem took_sendWindowOpen (s : State) (rest : List (List PortWord)) : (s.took rest).sendWindowOpen = s.sendWindowOpen := rfl
@[simp] theorem took_keyboardBlocked (s : State) (rest : List (List PortWord)) : (s.took rest).keyboardBlocked = s.keyboardBlocked := rfl
@[simp] theorem took_cdPolled (s : State) (rest : List (List PortWord)) : (s.took rest).cdPolled = s.cdPolled := rfl
@[simp] theorem took_cdPlay (s : State) (rest : List (List PortWord)) : (s.took rest).cdPlay = s.cdPlay := rfl
@[simp] theorem took_radioMessageCount (s : State) (rest : List (List PortWord)) : (s.took rest).radioMessageCount = s.radioMessageCount := rfl
@[simp] theorem took_tick600 (s : State) (rest : List (List PortWord)) : (s.took rest).tick600 = s.tick600 := rfl
@[simp] theorem took_infoLive (s : State) (rest : List (List PortWord)) : (s.took rest).infoLive = s.infoLive := rfl
@[simp] theorem took_halted (s : State) (rest : List (List PortWord)) : (s.took rest).halted = s.halted := rfl
@[simp] theorem took_straps (s : State) (rest : List (List PortWord)) : (s.took rest).straps = s.straps := rfl
@[simp] theorem took_strapPins (s : State) (rest : List (List PortWord)) : (s.took rest).strapPins = s.strapPins := rfl
@[simp] theorem took_inbox (s : State) (rest : List (List PortWord)) : (s.took rest).inbox = rest := rfl
@[simp] theorem took_actions (s : State) (rest : List (List PortWord)) : (s.took rest).actions = s.actions := rfl
@[simp] theorem took_result (s : State) (rest : List (List PortWord)) : (s.took rest).result = s.result := rfl
@[simp] theorem took_params (s : State) (rest : List (List PortWord)) : (s.took rest).params = s.params := rfl

/-! ### raiseHalt -/

@[simp] theorem raiseHalt_buf (c : Cause) (s : State) : (raiseHalt c s).buf = s.buf := rfl
@[simp] theorem raiseHalt_len (c : Cause) (s : State) : (raiseHalt c s).len = s.len := rfl
@[simp] theorem raiseHalt_lastRx (c : Cause) (s : State) : (raiseHalt c s).lastRx = s.lastRx := rfl
@[simp] theorem raiseHalt_sendWindowOpen (c : Cause) (s : State) : (raiseHalt c s).sendWindowOpen = s.sendWindowOpen := rfl
@[simp] theorem raiseHalt_keyboardBlocked (c : Cause) (s : State) : (raiseHalt c s).keyboardBlocked = s.keyboardBlocked := rfl
@[simp] theorem raiseHalt_cdPolled (c : Cause) (s : State) : (raiseHalt c s).cdPolled = s.cdPolled := rfl
@[simp] theorem raiseHalt_cdPlay (c : Cause) (s : State) : (raiseHalt c s).cdPlay = s.cdPlay := rfl
@[simp] theorem raiseHalt_radioMessageCount (c : Cause) (s : State) : (raiseHalt c s).radioMessageCount = s.radioMessageCount := rfl
@[simp] theorem raiseHalt_tick600 (c : Cause) (s : State) : (raiseHalt c s).tick600 = s.tick600 := rfl
@[simp] theorem raiseHalt_infoLive (c : Cause) (s : State) : (raiseHalt c s).infoLive = s.infoLive := rfl
@[simp] theorem raiseHalt_halted (c : Cause) (s : State) : (raiseHalt c s).halted = true := rfl
@[simp] theorem raiseHalt_straps (c : Cause) (s : State) : (raiseHalt c s).straps = s.straps := rfl
@[simp] theorem raiseHalt_strapPins (c : Cause) (s : State) : (raiseHalt c s).strapPins = s.strapPins := rfl
@[simp] theorem raiseHalt_inbox (c : Cause) (s : State) : (raiseHalt c s).inbox = s.inbox := rfl
@[simp] theorem raiseHalt_actions (c : Cause) (s : State) : (raiseHalt c s).actions = s.actions ++ [.halt c] := rfl
@[simp] theorem raiseHalt_result (c : Cause) (s : State) : (raiseHalt c s).result = s.result := rfl
@[simp] theorem raiseHalt_params (c : Cause) (s : State) : (raiseHalt c s).params = s.params := rfl

/-! ### resetBlock -/

@[simp] theorem resetBlock_buf (t : Time) (s : State) : (resetBlock t s).buf = [] := rfl
@[simp] theorem resetBlock_len (t : Time) (s : State) : (resetBlock t s).len = 0 := rfl
@[simp] theorem resetBlock_lastRx (t : Time) (s : State) : (resetBlock t s).lastRx = t := rfl
@[simp] theorem resetBlock_sendWindowOpen (t : Time) (s : State) : (resetBlock t s).sendWindowOpen = false := rfl
@[simp] theorem resetBlock_keyboardBlocked (t : Time) (s : State) : (resetBlock t s).keyboardBlocked = true := rfl
@[simp] theorem resetBlock_cdPolled (t : Time) (s : State) : (resetBlock t s).cdPolled = false := rfl
@[simp] theorem resetBlock_cdPlay (t : Time) (s : State) : (resetBlock t s).cdPlay = CdPlay.none := rfl
@[simp] theorem resetBlock_radioMessageCount (t : Time) (s : State) : (resetBlock t s).radioMessageCount = 0 := rfl
@[simp] theorem resetBlock_tick600 (t : Time) (s : State) : (resetBlock t s).tick600 = 0 := rfl
@[simp] theorem resetBlock_infoLive (t : Time) (s : State) : (resetBlock t s).infoLive = false := rfl
@[simp] theorem resetBlock_halted (t : Time) (s : State) : (resetBlock t s).halted = false := rfl
@[simp] theorem resetBlock_straps (t : Time) (s : State) : (resetBlock t s).straps = s.strapPins := rfl
@[simp] theorem resetBlock_strapPins (t : Time) (s : State) : (resetBlock t s).strapPins = s.strapPins := rfl
@[simp] theorem resetBlock_inbox (t : Time) (s : State) : (resetBlock t s).inbox = s.inbox := rfl
@[simp] theorem resetBlock_actions (t : Time) (s : State) : (resetBlock t s).actions = s.actions := rfl
@[simp] theorem resetBlock_result (t : Time) (s : State) : (resetBlock t s).result = s.result := rfl
@[simp] theorem resetBlock_params (t : Time) (s : State) : (resetBlock t s).params = s.params := rfl

/-! ### stampByte -/

@[simp] theorem stampByte_buf (t : Time) (s : State) : (stampByte t s).buf = s.buf := rfl
@[simp] theorem stampByte_len (t : Time) (s : State) : (stampByte t s).len = s.len := rfl
@[simp] theorem stampByte_lastRx (t : Time) (s : State) : (stampByte t s).lastRx = t := rfl
@[simp] theorem stampByte_sendWindowOpen (t : Time) (s : State) : (stampByte t s).sendWindowOpen = false := rfl
@[simp] theorem stampByte_keyboardBlocked (t : Time) (s : State) : (stampByte t s).keyboardBlocked = s.keyboardBlocked := rfl
@[simp] theorem stampByte_cdPolled (t : Time) (s : State) : (stampByte t s).cdPolled = s.cdPolled := rfl
@[simp] theorem stampByte_cdPlay (t : Time) (s : State) : (stampByte t s).cdPlay = s.cdPlay := rfl
@[simp] theorem stampByte_radioMessageCount (t : Time) (s : State) : (stampByte t s).radioMessageCount = s.radioMessageCount := rfl
@[simp] theorem stampByte_tick600 (t : Time) (s : State) : (stampByte t s).tick600 = s.tick600 := rfl
@[simp] theorem stampByte_infoLive (t : Time) (s : State) : (stampByte t s).infoLive = s.infoLive := rfl
@[simp] theorem stampByte_halted (t : Time) (s : State) : (stampByte t s).halted = s.halted := rfl
@[simp] theorem stampByte_straps (t : Time) (s : State) : (stampByte t s).straps = s.straps := rfl
@[simp] theorem stampByte_strapPins (t : Time) (s : State) : (stampByte t s).strapPins = s.strapPins := rfl
@[simp] theorem stampByte_inbox (t : Time) (s : State) : (stampByte t s).inbox = s.inbox := rfl
@[simp] theorem stampByte_actions (t : Time) (s : State) : (stampByte t s).actions = s.actions := rfl
@[simp] theorem stampByte_result (t : Time) (s : State) : (stampByte t s).result = s.result := rfl
@[simp] theorem stampByte_params (t : Time) (s : State) : (stampByte t s).params = s.params := rfl

end Sys2Proof.Machine
end

