-- ==== Sys2Proof/Laws/Ops.lean ====
section
/-! SUPPORT. What each shared operation does, said once: the emulator's operations as one record update, and what any part
of a dispatch can change. Later proofs cite these and do not unfold the operations. -/

namespace Sys2Proof.Machine

/-! ### The emulator's operations as record updates -/

/-- The actions of an info reply (R175). -/
def infoReplyActions : CdPlay → List Action
  | .playing => [.tx .playing, .unmute]
  | .paused => [.tx .paused]
  | .stopped => [.tx .stopped]
  | .none => [.tx .stopped]

theorem infoReply_eq (s : State) : infoReply s = { s with actions := s.actions ++ infoReplyActions s.cdPlay } := by
  unfold infoReply
  split <;> rename_i h <;> simp [State.emit, h, infoReplyActions]

theorem cdcEntry_eq (s : State) :
    cdcEntry s = { s with keyboardBlocked := false, cdPlay := .playing
                          actions := s.actions ++ if hasVideo s then [.video .pi] else [] } := by
  unfold cdcEntry
  split <;> simp [State.emit]

theorem cdcOutkey_eq (s : State) :
    cdcOutkey s = { s with keyboardBlocked := true
                           actions := s.actions ++ if hasVideo s then [.video .bmw] else [] } := by
  unfold cdcOutkey
  split <;> simp [State.emit]

theorem announce_eq (s : State) :
    announce s = if announceDue s then { s with radioMessageCount := 0, actions := s.actions ++ [.tx .announce] }
                 else s := rfl

/-- The timer actions of an info request (R167). -/
def rearmActions (s : State) : List Action :=
  if infoTimerUsed s then
    if s.infoLive then [.tmrCancel, .tmrArm s.straps.cdinfoIvl] else [.tmrArm s.straps.cdinfoIvl]
  else []

theorem rearmInfoTimer_eq (s : State) :
    rearmInfoTimer s = { s with infoLive := s.infoLive || infoTimerUsed s, actions := s.actions ++ rearmActions s } := by
  unfold rearmInfoTimer rearmActions
  split
  · split <;> simp_all [State.emit]
  · simp_all

theorem serviceWindow_eq (t : Time) (s : State) :
    serviceWindow t s =
      if monitorsLine s then
        { s with sendWindowOpen := s.sendWindowOpen || windowMayOpen t s
                 actions := s.actions ++ [.txqService s.sendWindowOpen] }
      else s := by
  unfold serviceWindow
  split
  · split <;> simp_all [State.emit]
  · rfl

/-! ### The timer discipline along a list of actions -/

theorem timerAfter_append (live : Bool) (as bs : List Action) :
    timerAfter live (as ++ bs) = (timerAfter live as).bind (timerAfter · bs) := by
  induction as generalizing live with
  | nil => rfl
  | cons a as ih => cases a <;> cases live <;> simp [timerAfter, ih]

theorem timerAfter_infoReply (live : Bool) (p : CdPlay) : timerAfter live (infoReplyActions p) = some live := by
  cases p <;> rfl

theorem timerAfter_rearm (s : State) :
    timerAfter s.infoLive (rearmActions s) = some (s.infoLive || infoTimerUsed s) := by
  unfold rearmActions
  split
  · split <;> simp_all [timerAfter]
  · simp_all [timerAfter]

/-! ### What a dispatch, or any part of one, can change -/

/-- `u` differs from `s` only where a dispatch may write (R140: `keyboardBlocked`, `cdPolled`, `cdPlay`, `infoLive`,
`radioMessageCount`), its actions stand after those of `s`, and the emulator's own promises hold: `cdPolled` is sticky
(R258), `cdPlay` never returns to NONE (R180), the counter saturates (R33), the timer discipline holds (R256). -/
structure EmuChange (s u : State) : Prop where
  frame   : u = { s with keyboardBlocked := u.keyboardBlocked, cdPolled := u.cdPolled, cdPlay := u.cdPlay
                         radioMessageCount := u.radioMessageCount, infoLive := u.infoLive, actions := u.actions }
  polled  : s.cdPolled = true → u.cdPolled = true
  played  : s.cdPlay ≠ .none → u.cdPlay ≠ .none
  radio   : s.radioMessageCount ≤ radioCountMax → u.radioMessageCount ≤ radioCountMax
  used    : u.infoLive = true → s.infoLive = true ∨ infoTimerUsed s = true
  emitted : ∃ as, u.actions = s.actions ++ as ∧ timerAfter s.infoLive as = some u.infoLive

theorem EmuChange.refl (s : State) : EmuChange s s :=
  ⟨rfl, id, id, id, .inl, [], (List.append_nil _).symm, rfl⟩

theorem EmuChange.trans {s u v : State} (h : EmuChange s u) (k : EmuChange u v) : EmuChange s v := by
  obtain ⟨as, ha, ta⟩ := h.emitted
  obtain ⟨bs, hb, tb⟩ := k.emitted
  have hs : infoTimerUsed u = infoTimerUsed s := by rw [h.frame]; rfl
  refine ⟨?_, fun x => k.polled (h.polled x), fun x => k.played (h.played x), fun x => k.radio (h.radio x), ?_, as ++ bs, ?_, ?_⟩
  · rw [k.frame, h.frame]
  · intro x
    rcases k.used x with y | y
    · exact h.used y
    · exact .inr (hs ▸ y)
  · rw [hb, ha, List.append_assoc]
  · rw [timerAfter_append, ta]; exact tb

/-- An action that is no timer action, appended, is such a change. -/
theorem EmuChange.of_emit (s : State) (a : Action) (h : ∀ b, timerAfter b [a] = some b) : EmuChange s (s.emit a) :=
  ⟨rfl, id, id, id, .inl, [a], rfl, h _⟩

theorem infoReply_change (s : State) : EmuChange s (infoReply s) := by
  rw [infoReply_eq]
  exact ⟨rfl, id, id, id, .inl, _, rfl, timerAfter_infoReply _ _⟩

theorem cdcEntry_change (s : State) : EmuChange s (cdcEntry s) := by
  rw [cdcEntry_eq]
  exact ⟨rfl, id, fun _ => by simp, id, .inl, _, rfl, by split <;> rfl⟩

theorem announce_change (s : State) : EmuChange s (announce s) := by
  rw [announce_eq]
  split
  · exact ⟨rfl, id, id, fun _ => Nat.zero_le _, .inl, _, rfl, rfl⟩
  · exact .refl s

theorem rearm_change (s : State) : EmuChange s (rearmInfoTimer s) := by
  rw [rearmInfoTimer_eq]
  exact ⟨rfl, id, id, id, fun h => by simpa using h, _, rfl, timerAfter_rearm s⟩

theorem cdcPoll_change (s : State) : EmuChange s (cdcPoll s) :=
  ⟨rfl, fun _ => rfl, id, id, .inl, _, rfl, rfl⟩

theorem cdcStop_change (s : State) : EmuChange s (cdcStop s) :=
  ⟨rfl, id, fun _ => by simp [cdcStop], id, .inl, _, rfl, rfl⟩

theorem cdcPause_change (s : State) : EmuChange s (cdcPause s) :=
  ⟨rfl, id, fun _ => by simp [cdcPause], id, .inl, _, rfl, rfl⟩

theorem cdcStart_change (s : State) : EmuChange s (cdcStart s) :=
  ⟨rfl, id, fun _ => by simp [cdcStart], id, .inl, _, rfl, rfl⟩

theorem cdcDiskchg_change (f : Frame) (s : State) : EmuChange s (cdcDiskchg f s) := by
  unfold cdcDiskchg
  split
  · exact .of_emit s _ fun _ => rfl
  · exact .refl s

theorem cdcOutkey_change (s : State) : EmuChange s (cdcOutkey s) := by
  rw [cdcOutkey_eq]
  exact ⟨rfl, id, id, id, .inl, _, rfl, by split <;> rfl⟩

theorem cdcTmrcancel_change (f : Frame) (s : State) : EmuChange s (cdcTmrcancel f s) := by
  unfold cdcTmrcancel
  split
  · rename_i h
    simp only [Bool.and_eq_true] at h
    exact ⟨rfl, id, id, id, fun x => by simp at x, _, rfl, by rw [h.2]; rfl⟩
  · exact .refl s

theorem runHandler_change (f : Frame) (s : State) (h : Handler) : EmuChange s (runHandler f s h) := by
  cases h with
  | noHandler => exact .refl s
  | cdcPoll => exact cdcPoll_change s
  | cdcInforeq => exact (infoReply_change s).trans (rearm_change _)
  | cdcEnter => exact cdcEntry_change s
  | cdcStop => exact cdcStop_change s
  | cdcPause => exact cdcPause_change s
  | cdcStart => exact cdcStart_change s
  | cdcDiskchg => exact cdcDiskchg_change f s
  | cdcOutkey => exact cdcOutkey_change s
  | cdcTmrcancel => exact cdcTmrcancel_change f s
  | ext x => exact .of_emit s _ fun _ => rfl

theorem fireKey_change (k : Option KeyCode) (s : State) : EmuChange s (fireKey k s) := by
  unfold fireKey
  split
  · split
    · exact .refl s
    · exact .of_emit s _ fun _ => rfl
  · exact .refl s

theorem fireCmd_change (c : Option CmdId) (s : State) : EmuChange s (fireCmd c s) := by
  unfold fireCmd
  split
  · exact .of_emit s _ fun _ => rfl
  · exact .refl s

theorem fireEntry_change (e : RuleEntry) (f : Frame) (s : State) : EmuChange s (fireEntry e f s) :=
  ((fireKey_change _ s).trans (fireCmd_change _ _)).trans (runHandler_change f _ _)

theorem cdcHeuristic_change (f : Frame) (s : State) : EmuChange s (cdcHeuristic f s) := by
  unfold cdcHeuristic
  split
  · exact cdcEntry_change s
  · exact .refl s

theorem radioCount_change (f : Frame) (s : State) : EmuChange s (radioCount f s) := by
  unfold radioCount
  split
  · exact ⟨rfl, id, id, fun _ => Nat.min_le_right _ _, .inl, [], (List.append_nil _).symm, rfl⟩
  · exact .refl s

theorem lookupAndFire_change (f : Frame) (s : State) : EmuChange s (lookupAndFire f s) := by
  unfold lookupAndFire
  split
  · exact .of_emit s _ fun _ => rfl
  · split
    · exact fireEntry_change _ f s
    · exact .refl s

/-- Everything a dispatch can do. -/
theorem dispatchFrame_change (f : Frame) (s : State) : EmuChange s (dispatchFrame f s) :=
  (((EmuChange.of_emit s _ fun _ => rfl).trans (cdcHeuristic_change f _)).trans (radioCount_change f _)).trans
    (lookupAndFire_change f _)

end Sys2Proof.Machine
end

