-- ==== Sys2Proof/Laws/Dispatcher.lean ====
section
/-! SUPPORT. The EventDispatcher's parts, said once: when an entry or a shape matches, what the lookup finds, what key and
command of an entry emit, and that no part of a dispatch looks at `lastRx`. -/

namespace Sys2Proof.Machine

theorem nonEmpty_iff (f : Frame) : nonEmpty f = true ↔ f ≠ [] := by cases f <;> simp [nonEmpty]

/-- R88, by whole lists. -/
theorem entryMatches_iff_take (e : RuleEntry) (f : Frame) :
    entryMatches e f = true ↔ e.pfx.length ≤ f.length ∧ f.take e.pfx.length = e.pfx := by
  simp [entryMatches]

/-- R88, byte by byte. -/
theorem entryMatches_iff_bytes (e : RuleEntry) (f : Frame) :
    entryMatches e f = true ↔ e.pfx.length ≤ f.length ∧ ∀ k, k < e.pfx.length → e.pfx[k]? = f[k]? := by
  rw [entryMatches_iff_take]
  refine and_congr_right fun hl => ⟨fun h k hk => ?_, fun h => List.ext_getElem? fun k => ?_⟩
  · have := List.getElem?_take_of_lt (l := f) hk
    rw [h] at this
    exact this
  · by_cases hk : k < e.pfx.length
    · rw [List.getElem?_take_of_lt hk, h k hk]
    · rw [List.getElem?_eq_none (by simp; omega), List.getElem?_eq_none (by omega)]

/-- What an index that LOOKUP answers says (R146). -/
theorem lookupIn_some {es : List RuleEntry} {f : Frame} {i : Nat} (h : lookupIn es f = some i) :
    ∃ e, es[i]? = some e ∧ entryMatches e f = true ∧
      ∀ j, j < i → ∀ e', es[j]? = some e' → entryMatches e' f = false := by
  induction es generalizing i with
  | nil => simp [lookupIn] at h
  | cons e es ih =>
    simp only [lookupIn] at h
    split at h
    · cases h
      exact ⟨e, rfl, by assumption, by omega⟩
    · rename_i hne
      obtain ⟨k, hk, rfl⟩ := Option.map_eq_some_iff.1 h
      obtain ⟨e1, h1, h2, h3⟩ := ih hk
      refine ⟨e1, by simpa using h1, h2, fun j hj e' he' => ?_⟩
      cases j with
      | zero => simp at he'; subst he'; simpa using hne
      | succ j => exact h3 j (by omega) e' (by simpa using he')

/-- NOMATCH (R146). -/
theorem lookupIn_none {es : List RuleEntry} {f : Frame} :
    lookupIn es f = none ↔ ∀ e ∈ es, entryMatches e f = false := by
  induction es with
  | nil => simp [lookupIn]
  | cons e es ih => simp only [lookupIn]; split <;> simp_all

/-- The first matching entry is what LOOKUP answers. -/
theorem lookupIn_of_first {es : List RuleEntry} {f : Frame} {i : Nat} {e : RuleEntry} (h : es[i]? = some e)
    (hm : entryMatches e f = true) (hf : ∀ j, j < i → ∀ e', es[j]? = some e' → entryMatches e' f = false) :
    lookupIn es f = some i := by
  cases hl : lookupIn es f with
  | none => have := lookupIn_none.1 hl e (List.mem_of_getElem? h); simp [hm] at this
  | some k =>
    obtain ⟨e', h1, h2, h3⟩ := lookupIn_some hl
    rcases Nat.lt_trichotomy k i with x | rfl | x
    · have := hf k x e' h1; simp [h2] at this
    · rfl
    · have := h3 i x e h; simp [hm] at this

/-- R143 for one shape. -/
theorem shapeMatches_iff (sh : Shape) (f : Frame) :
    shapeMatches sh f = true ↔ f.length = sh.slen ∧ ∀ c ∈ sh.conds, f[c.off]? = some c.val := by
  simp [shapeMatches, condHolds]

/-- Key and command of an entry as one record update (R147). -/
theorem fireCmd_fireKey_eq (s : State) (e : RuleEntry) :
    fireCmd e.cmd (fireKey e.key s) =
      { s with actions := s.actions ++ (if s.keyboardBlocked then [] else e.key.toList.map Action.key) ++
                          e.cmd.toList.map Action.cmd } := by
  unfold fireCmd fireKey
  obtain ⟨_, _, _, _, kb, _, _, _, _, _, _, _, _, _, _, _, _⟩ := s
  cases e.key <;> cases e.cmd <;> cases kb <;> simp [State.emit]

/-- Where the entry at index `i` is the first that matches, the last two steps of DISPATCH fire it. -/
theorem lookupAndFire_of_first {f : Frame} {s : State} {i : Nat} {e : RuleEntry} (h : s.params.rules[i]? = some e)
    (hm : entryMatches e f = true)
    (hf : ∀ j, j < i → ∀ e', s.params.rules[j]? = some e' → entryMatches e' f = false) :
    lookupAndFire f s = fireEntry e f s := by
  simp [lookupAndFire, lookupIn_of_first h hm hf, h]

/-- No part of a dispatch reads or writes `lastRx`. -/
theorem dispatchFrame_lastRx (f : Frame) (s : State) (l : Time) :
    dispatchFrame f { s with lastRx := l } = { dispatchFrame f s with lastRx := l } := by
  have key : radioCount f (cdcHeuristic f (logFrame f { s with lastRx := l })) =
      { radioCount f (cdcHeuristic f (logFrame f s)) with lastRx := l } := by
    simp only [logFrame, State.emit, cdcHeuristic, cdcEntry_eq, radioCount, fromRadio]
    by_cases a : anyShapeMatches s.params.shapes f <;> by_cases b : (frameSrc f == some s.params.radioAddr) = true <;>
      simp_all [hasVideo]
  unfold dispatchFrame
  rw [key]
  generalize radioCount f (cdcHeuristic f (logFrame f s)) = y
  unfold lookupAndFire
  simp only
  cases lookupIn y.params.rules f with
  | none => rfl
  | some i =>
    simp only
    cases y.params.rules[i]? with
    | none => rfl
    | some e =>
      simp only [fireEntry, fireCmd_fireKey_eq]
      cases e.handler <;> simp only [runHandler, cdcPoll, cdcInforeq, cdcEntry_eq, cdcStop, cdcPause, cdcStart,
        cdcDiskchg, cdcOutkey_eq, cdcTmrcancel, callExternal, State.emit, infoReply_eq, rearmInfoTimer_eq, rearmActions,
        infoTimerUsed, hasVideo] <;> (try rfl)
      · cases diskChangeOk y.params f <;> rfl
      · cases (tmrCancelPred y.params f && y.infoLive) <;> rfl

end Sys2Proof.Machine
end

