-- ==== Sys2Proof/Laws/Memory.lean ====
section
/-! SUPPORT. The buffer: a read after a write, and the canonical form that every write keeps. -/

namespace Sys2Proof.Machine

@[simp] theorem Memory.read_nil (k : Nat) : Memory.read [] k = none := rfl

theorem Memory.read_write_same (m : Memory) (k : Nat) (v : Byte) : (m.write k v).read k = some v := by
  induction m with
  | nil => simp [Memory.write, Memory.read]
  | cons c m ih =>
    obtain ⟨a, w⟩ := c
    simp only [Memory.write]
    split
    · simp [Memory.read]
    · split
      · simp [Memory.read]
      · rename_i h
        simp [Memory.read, Ne.symm h, ih]

theorem Memory.read_write_other (m : Memory) {k j : Nat} (v : Byte) (h : j ≠ k) : (m.write k v).read j = m.read j := by
  induction m with
  | nil => simp [Memory.write, Memory.read, Ne.symm h]
  | cons c m ih =>
    obtain ⟨a, w⟩ := c
    simp only [Memory.write]
    split
    · simp [Memory.read, Ne.symm h]
    · split
      · rename_i e
        subst e
        simp [Memory.read, Ne.symm h]
      · simp only [Memory.read, ih]

/-- What a slot holds after a write, in one line. -/
theorem Memory.read_write (m : Memory) (k j : Nat) (v : Byte) :
    (m.write k v).read j = if j = k then some v else m.read j := by
  split
  · rename_i h
    rw [h, Memory.read_write_same]
  · exact Memory.read_write_other m v (by assumption)

theorem Memory.wfFrom_write {m : Memory} {lo k : Nat} (v : Byte) (hlo : lo ≤ k) (hk : k < Config.cap)
    (h : Memory.wfFrom lo m = true) : Memory.wfFrom lo (m.write k v) = true := by
  induction m generalizing lo with
  | nil => simp [Memory.write, Memory.wfFrom, hlo, hk]
  | cons c m ih =>
    obtain ⟨a, w⟩ := c
    simp only [Memory.wfFrom, Bool.and_eq_true, decide_eq_true_eq] at h
    simp only [Memory.write]
    split
    · rename_i hka
      simp [Memory.wfFrom, hlo, hk, h.1.2, h.2]
      omega
    · split
      · rename_i e
        subst e
        simp [Memory.wfFrom, hlo, hk, h.2]
      · simp only [Memory.wfFrom, Bool.and_eq_true, decide_eq_true_eq]
        exact ⟨h.1, ih (by omega) h.2⟩

/-- A write to a slot of the buffer keeps the canonical form. -/
theorem Memory.wf_write {m : Memory} {k : Nat} (v : Byte) (hk : k < Config.cap) (h : m.wf = true) :
    (m.write k v).wf = true :=
  Memory.wfFrom_write v (Nat.zero_le k) hk h

/-- The reset memory is canonical. -/
theorem reset_buf_wf : Memory.wf State.reset.buf = true := rfl

/-- Laying bytes inside the buffer keeps the canonical form. -/
theorem layBytes_wf {m : Memory} {a : Nat} {bs : List Byte} (hm : m.wf = true) (h : a + bs.length ≤ Config.cap) :
    (layBytes m a bs).wf = true := by
  induction bs generalizing m a with
  | nil => exact hm
  | cons b bs ih =>
    simp only [List.length_cons] at h
    exact ih (Memory.wf_write b (by omega) hm) (by omega)

/-- What every slot reads as after bytes are laid from `a` on. -/
theorem layBytes_read (m : Memory) (a : Nat) (bs : List Byte) (k : Nat) :
    (layBytes m a bs).read k = if a ≤ k ∧ k < a + bs.length then bs[k - a]? else m.read k := by
  induction bs generalizing m a with
  | nil =>
    have : ¬ (a ≤ k ∧ k < a + 0) := by omega
    rw [List.length_nil, if_neg this]
    rfl
  | cons b bs ih =>
    rw [layBytes, ih, Memory.read_write, List.length_cons]
    rcases Nat.lt_trichotomy k a with h | rfl | h
    · rw [if_neg (by omega), if_neg (by omega), if_neg (by omega)]
    · rw [if_neg (by omega), if_pos rfl, if_pos (by omega), Nat.sub_self]
      rfl
    · obtain ⟨j, rfl⟩ : ∃ j, k = a + 1 + j := ⟨k - (a + 1), by omega⟩
      have e : a + 1 + j - a = j + 1 := by omega
      rw [e, Nat.add_sub_cancel_left, List.getElem?_cons_succ, if_neg (by omega : ¬ a + 1 + j = a)]
      by_cases hj : j < bs.length
      · rw [if_pos (by omega), if_pos (by omega)]
      · rw [if_neg (by omega), if_neg (by omega)]

/-- Laying bytes after bytes is laying both: what a fed frame leaves in the buffer, byte by byte. -/
theorem layBytes_append (m : Memory) (a : Nat) (bs cs : List Byte) :
    layBytes m a (bs ++ cs) = layBytes (layBytes m a bs) (a + bs.length) cs := by
  induction bs generalizing m a with
  | nil => rfl
  | cons b bs ih => simp only [List.cons_append, layBytes, ih, List.length_cons, Nat.add_assoc, Nat.add_comm 1]

/-- When every slot from `a` on holds the byte of `f`, reading them gives `f`. -/
theorem readSlots_eq_ok {m : Memory} {a : Nat} {f : List Byte} (hcap : a + f.length ≤ Config.cap)
    (h : ∀ i, i < f.length → m.read (a + i) = f[i]?) : readSlots m a f.length = .ok f := by
  induction f generalizing a with
  | nil => rfl
  | cons b f ih =>
    simp only [List.length_cons] at hcap
    have h0 : m.read a = some b := by simpa using h 0 (by simp)
    have hrest : readSlots m (a + 1) f.length = .ok f := by
      refine ih (by omega) fun i hi => ?_
      have := h (i + 1) (by simpa using hi)
      simpa [Nat.add_assoc, Nat.add_comm 1 i] using this
    have hlt : ¬ Config.cap ≤ a := by omega
    simp [readSlots, readSlot, h0, hrest, hlt]

/-- When every slot below `n` has been written, the read of `n` slots succeeds and gives those bytes. -/
theorem readSlots_of_written {m : Memory} {a n : Nat} (hcap : a + n ≤ Config.cap)
    (h : ∀ i, i < n → ∃ b, m.read (a + i) = some b) :
    ∃ f, readSlots m a n = .ok f ∧ f.length = n ∧ ∀ i, i < n → m.read (a + i) = f[i]? := by
  induction n generalizing a with
  | zero => exact ⟨[], rfl, rfl, by simp⟩
  | succ n ih =>
    obtain ⟨b, hb⟩ := h 0 (by omega)
    obtain ⟨f, hf, hl, hr⟩ := ih (a := a + 1) (by omega) fun i hi => by
      have := h (i + 1) (by omega)
      simpa [Nat.add_assoc, Nat.add_comm 1 i] using this
    have hlt : ¬ Config.cap ≤ a := by omega
    simp only [Nat.add_zero] at hb
    refine ⟨b :: f, by simp [readSlots, readSlot, hb, hf, hlt], by simp [hl], fun i hi => ?_⟩
    cases i with
    | zero => simpa using hb
    | succ i =>
      have := hr i (by omega)
      simpa [Nat.add_assoc, Nat.add_comm 1 i] using this

end Sys2Proof.Machine
end

