-- ==== Sys2Proof/Laws/Assembler.lean ====
section
/-! SUPPORT. The FrameAssembler's and the tick's parts, said once: what each can change, and all that COMPLETE can do. -/

namespace Sys2Proof.Machine

/-- RESYNC changes LEN at most. -/
theorem resync_frame (t : Time) (s : State) : resync t s = { s with len := (resync t s).len } := by
  unfold resync
  split <;> rfl

theorem resync_len_le (t : Time) (s : State) : (resync t s).len ≤ s.len := by
  unfold resync
  split <;> simp

/-- APPEND changes the buffer and LEN at most. -/
theorem appendByte_frame (b : Byte) (s : State) :
    appendByte b s = { s with buf := (appendByte b s).buf, len := (appendByte b s).len } := by
  unfold appendByte
  split <;> rfl

/-- The one slot APPEND writes (R113). -/
theorem appendByte_buf (b : Byte) (s : State) :
    (appendByte b s).buf = s.buf.write (if s.len < Config.cap then s.len else Config.cap - 1) b := by
  unfold appendByte
  split <;> rfl

/-- What every slot reads as after APPEND. -/
theorem appendByte_read (b : Byte) (s : State) (a : Nat) :
    (appendByte b s).buf.read a =
      if a = (if s.len < Config.cap then s.len else Config.cap - 1) then some b else s.buf.read a := by
  rw [appendByte_buf, Memory.read_write]

/-- All that COMPLETE can do when it does not stop: nothing, or the dispatch of some frame with LEN cleared. -/
theorem completeFrame_cases {s u : State} (h : completeFrame s = .next u) :
    u = s ∨ ∃ f, readSlots s.buf 0 s.len = .ok f ∧ Config.minFrame ≤ s.len ∧ u = dispatchFrame f { s with len := 0 } := by
  unfold completeFrame at h
  split at h
  · cases h; exact .inl rfl
  · rename_i h4
    split at h
    · cases h
    · split at h
      · split at h
        · cases h
        · cases h; exact .inr ⟨_, by assumption, Nat.le_of_not_lt h4, rfl⟩
      · cases h; exact .inl rfl

/-- COMPLETE over written slots never stops, and what it leaves undispatched is no complete frame (R43, I5). -/
theorem completeFrame_of_written {s : State} (hw : ∀ a, a < s.len → ∃ b, s.buf.read a = some b)
    (hl : s.len ≤ Config.cap) :
    (completeFrame s = .next s ∧ ¬ holdsWholeFrame s) ∨
      ∃ f, f.length = s.len ∧ Config.minFrame ≤ s.len ∧ completeFrame s = .next (dispatchFrame f { s with len := 0 }) := by
  have hm : Config.minFrame = 4 := rfl
  unfold completeFrame holdsWholeFrame
  by_cases h4 : s.len < Config.minFrame
  · exact .inl ⟨if_pos h4, fun h => by omega⟩
  · obtain ⟨b, hb⟩ := hw 1 (by omega)
    have hr : readSlot s.buf 1 = .ok b := by simp [readSlot, hb, Config.cap]
    rw [if_neg h4]
    simp only [hr]
    by_cases ht : totalLength b = s.len
    · obtain ⟨f, hf, hfl, -⟩ := readSlots_of_written (m := s.buf) (a := 0) (n := s.len) (by omega) (by simpa using hw)
      refine .inr ⟨f, hfl, by omega, ?_⟩
      rw [if_pos ht, hf]
    · refine .inl ⟨if_neg ht, ?_⟩
      rintro ⟨-, b', hb', ht'⟩
      rw [hb] at hb'
      cases hb'
      exact ht ht'

/-- The tick's count changes the counter, and with an announcement the radio count and the actions (R201, R178). -/
theorem tickCount_frame (s : State) :
    tickCount s = { s with tick600 := (tickCount s).tick600, radioMessageCount := (tickCount s).radioMessageCount
                           actions := (tickCount s).actions } := by
  unfold tickCount announce
  split
  · split
    · split <;> rfl
    · rfl
  · rfl

/-- `HWREV >= 4`, `MONGPIO > 0` and the window test as arithmetic (R36, R204). -/
theorem hasVideo_iff (s : State) : hasVideo s = true ↔ 4 ≤ s.straps.hwrev.toNat := by
  unfold hasVideo videoHwrev
  exact decide_eq_true_iff

theorem monitorsLine_iff (s : State) : monitorsLine s = true ↔ s.straps.mongpio ≠ 0 := by
  rw [monitorsLine, decide_eq_true_iff, ne_eq, ← BitVec.toNat_inj, Nat.pos_iff_ne_zero]
  rfl

theorem infoTimerUsed_iff (s : State) : infoTimerUsed s = true ↔ s.straps.cdinfoIvl ≠ 0 := by
  rw [infoTimerUsed, decide_eq_true_iff, ne_eq, ← BitVec.toNat_inj, Nat.pos_iff_ne_zero]
  rfl

theorem windowMayOpen_iff (t : Time) (s : State) :
    windowMayOpen t s = true ↔ 100 ≤ (t - s.lastRx).toNat ∧ s.len = 0 := by
  unfold windowMayOpen windowQuietMs elapsed
  rw [Bool.and_eq_true, decide_eq_true_iff, beq_iff_eq]

end Sys2Proof.Machine
end

