-- ==== Sys2Proof/Laws/Loaders.lean ====
section
/-! SUPPORT. The table loaders, said once: when a shape is well-formed, when the checks of the loaders pass. -/

namespace Sys2Proof

/-- R90, R92 as arithmetic. -/
theorem shapeOk_iff (slen : Nat) (conds : List Cond) :
    shapeOk slen conds = true ↔ 4 ≤ slen ∧ slen ≤ 64 ∧ conds.length ≤ 8 ∧ ∀ c ∈ conds, c.off < slen := by
  unfold shapeOk Config.minFrame Config.cap Config.condMax
  simp only [Bool.and_eq_true, decide_eq_true_iff, List.all_eq_true, and_assoc]

/-- A shape within the bounds loads as itself. -/
theorem loadShape_of_ok {r : RawShape} (h : shapeOk r.slen r.conds = true) : loadShape r = .ok ⟨r.slen, r.conds, h⟩ := by
  rw [loadShape, dif_pos h]

/-- The first entry decides first: what loading a longer table comes to. -/
theorem loadRules_cons_ok {r : RawRule} {rs : List RawRule} {e : RuleEntry} (h : loadRule r = .ok e) :
    loadRules (r :: rs) = (loadRules rs).map (e :: ·) := by
  simp only [loadRules, h]
  cases loadRules rs <;> rfl

theorem loadRules_cons_error {r : RawRule} {rs : List RawRule} {e : DecodeError} (h : loadRule r = .error e) :
    loadRules (r :: rs) = .error e := by
  simp only [loadRules, h]

end Sys2Proof
end

