-- ==== Sys2Proof/Laws/PerInstr.lean ====
section
/-! SUPPORT. Per instruction: what the encoder writes for a well-formed instruction, the decoder reads back. -/

namespace Sys2Proof

/-- The handler ids read back as written (R87). -/
theorem decodeHid_encodeHid (h : Handler) : decodeHid (encodeHid h) = .ok h := by
  cases h with
  | ext x => revert x; decide
  | _ => rfl

/-- A handler's code decodes to the handler's operation on its frame. -/
theorem decode_handler {f : Frame} (h : Handler) (hf : frameOk f = true) :
    decode (.handler (encodeHid h) f) = h.toInstr f := by
  simp [decode, hf, decodeHid_encodeHid]

end Sys2Proof

namespace Sys2Proof.Laws.RoundTrip

/-- Where `i` is well-formed and has an encoding, decoding the encoding gives `i` back. -/
def Statement (i : Instr) : Prop := ∀ c, i.wf = true → encode i = some c → decode c = .ok i

/-- An instruction without an encoding meets the statement. -/
theorem of_uncoded {i : Instr} (h : encode i = none) : Statement i := fun _ _ hc => by simp [h] at hc

theorem reset (t : Time) : Statement (.reset t) := by rintro _ - ⟨⟩; rfl
theorem noEvent : Statement .noEvent := by rintro _ - ⟨⟩; rfl
theorem rxbyte (b : Byte) (t : Time) : Statement (.rxbyte b t) := by rintro _ - ⟨⟩; rfl
theorem tick (t : Time) : Statement (.tick t) := by rintro _ - ⟨⟩; rfl
theorem infotmr : Statement .infotmr := by rintro _ - ⟨⟩; rfl
theorem rxfault : Statement .rxfault := by rintro _ - ⟨⟩; rfl
theorem cdcPoll (f : Frame) : Statement (.cdcPoll f) := by rintro _ h ⟨⟩; exact decode_handler .cdcPoll h
theorem cdcInforeq (f : Frame) : Statement (.cdcInforeq f) := by rintro _ h ⟨⟩; exact decode_handler .cdcInforeq h
theorem cdcEnter (f : Frame) : Statement (.cdcEnter f) := by rintro _ h ⟨⟩; exact decode_handler .cdcEnter h
theorem cdcStop (f : Frame) : Statement (.cdcStop f) := by rintro _ h ⟨⟩; exact decode_handler .cdcStop h
theorem cdcPause (f : Frame) : Statement (.cdcPause f) := by rintro _ h ⟨⟩; exact decode_handler .cdcPause h
theorem cdcStart (f : Frame) : Statement (.cdcStart f) := by rintro _ h ⟨⟩; exact decode_handler .cdcStart h
theorem cdcDiskchg (f : Frame) : Statement (.cdcDiskchg f) := by rintro _ h ⟨⟩; exact decode_handler .cdcDiskchg h
theorem cdcOutkey (f : Frame) : Statement (.cdcOutkey f) := by rintro _ h ⟨⟩; exact decode_handler .cdcOutkey h
theorem cdcTmrcancel (f : Frame) : Statement (.cdcTmrcancel f) := by rintro _ h ⟨⟩; exact decode_handler .cdcTmrcancel h
theorem hext (x : BitVec 7) (f : Frame) : Statement (.hext x f) := by rintro _ h ⟨⟩; exact decode_handler (.ext x) h
theorem resync (t : Time) : Statement (.resync t) := of_uncoded rfl
theorem append (b : Byte) : Statement (.append b) := of_uncoded rfl
theorem complete : Statement .complete := of_uncoded rfl
theorem checksum (f : Frame) : Statement (.checksum f) := of_uncoded rfl
theorem dispatch (f : Frame) : Statement (.dispatch f) := of_uncoded rfl
theorem log (f : Frame) : Statement (.log f) := of_uncoded rfl
theorem cdcheur (f : Frame) : Statement (.cdcheur f) := of_uncoded rfl
theorem radiocnt (f : Frame) : Statement (.radiocnt f) := of_uncoded rfl
theorem lookup (f : Frame) : Statement (.lookup f) := of_uncoded rfl
theorem fire (e : RuleEntry) (f : Frame) : Statement (.fire e f) := of_uncoded rfl
theorem unmatched (f : Frame) : Statement (.unmatched f) := of_uncoded rfl
theorem inforeply : Statement .inforeply := of_uncoded rfl
theorem cdcentry : Statement .cdcentry := of_uncoded rfl
theorem announce : Statement .announce := of_uncoded rfl
theorem tickcnt : Statement .tickcnt := of_uncoded rfl
theorem winsvc (t : Time) : Statement (.winsvc t) := of_uncoded rfl
theorem ruleRotary (rot ck : Byte) : Statement (.ruleRotary rot ck) := by rintro _ - ⟨⟩; rfl

end Sys2Proof.Laws.RoundTrip
end

