-- ==== Sys2Proof/Laws/Port.lean ====
section
/-! SUPPORT. Offering words at the port: a word alone in its instant, an empty port, an instant at which nothing is ready. -/

namespace Sys2Proof.Machine

@[simp] theorem nextWord_empty : nextWord [] = (.ev 0 0 0, []) := rfl

@[simp] theorem nextWord_quiet (later : List (List PortWord)) : nextWord ([] :: later) = (.ev 0 0 0, later) := rfl

theorem portPriority_le (w : PortWord) : portPriority w ≤ 5 := by
  unfold portPriority
  split
  · omega
  · split <;> omega

@[simp] theorem nextWord_single (w : PortWord) (later : List (List PortWord)) : nextWord ([w] :: later) = (w, later) := by
  have h : hasPriority (bestPriority [w]) w = true := by
    simp [hasPriority, bestPriority, Nat.min_eq_right (portPriority_le w)]
  simp [nextWord, takeReady, List.find?, List.eraseP, h]

/-- The step at a port whose next instant holds one event that decodes. -/
theorem step_of_decode {s : State} {w : PortWord} {rest : List (List PortWord)} {i : Instr}
    (hw : nextWord s.inbox = (w, rest)) (hi : decodePort w = .ok i) : step s = exec i (s.took rest) := by
  simp [step, hw, hi]

/-- The step at a reserved code. -/
theorem step_of_reserved {s : State} {w : PortWord} {rest : List (List PortWord)} {e : DecodeError}
    (hw : nextWord s.inbox = (w, rest)) (hi : decodePort w = .error e) : step s = .next (s.took rest) := by
  simp [step, hw, hi, ignoreWord]

/-- A run whose first step answers a next state goes on from it. -/
theorem runSteps_next {s u : State} (k : Nat) (h : step s = .next u) : runSteps (k + 1) s = runSteps k u := by
  simp only [runSteps, h]

end Sys2Proof.Machine
end

