-- ==== Sys2Proof/Tests/Slice0.lean ====
section
/-! SUPPORT. The model's own tests. Expected results are those of spec/95_test_vectors.md (V-…, P…) or of the rule cited, written
by hand. Small states under the configuration C0, table T1 and shapes S1 of that file; one step each. Then, for every
statement with hypotheses, a witness that meets them. -/

namespace Sys2Proof.Tests

open Sys2Proof.Machine

/-! ### Helpers -/

def nextOf : Host.Outcome State Fault Refusal → Option State
  | .next s => some s
  | .fault _ => none
  | .refused _ => none

/-- The actions of one instruction. -/
def acts (i : Instr) (s : State) : Option (List Action) := (nextOf (exec i s)).map State.actions

/-- One field after one instruction. -/
def after {α : Type} (field : State → α) (i : Instr) (s : State) : Option α := (nextOf (exec i s)).map field

def okOf {ε α : Type} : Except ε α → Option α
  | .ok a => some a
  | .error _ => none

def errOf {ε α : Type} : Except ε α → Option ε
  | .ok _ => none
  | .error e => some e

/-! ### Configuration C0 -/

def rule (pfx : List Byte) (key : Option KeyCode) (cmd : Option CmdId) (h : Handler)
    (ok : pfx.length ≤ Config.pmax := by decide) : RuleEntry :=
  ⟨pfx, key, cmd, h, ok⟩

def t1 : List RuleEntry :=
  [ rule [0x68, 0x03, 0x18, 0x01] none none .cdcPoll,
    rule [0x68, 0x05, 0x18, 0x38, 0x00] none none .cdcInforeq,
    rule [0x68, 0x05, 0x18, 0x38, 0x01] none none .cdcStop,
    rule [0x68, 0x05, 0x18, 0x38, 0x02] none none .cdcPause,
    rule [0x68, 0x05, 0x18, 0x38, 0x03] none none .cdcStart,
    rule [0x68, 0x05, 0x18, 0x38, 0x06] none none .cdcDiskchg,
    rule [0xF0, 0x04, 0x3B, 0x49] none none (.ext 0),
    rule [0x68, 0x05, 0x18, 0x38] (some 0x0067) (some 7) .noHandler,
    rule [0xF0, 0x04, 0x68, 0x48, 0x04] none none .cdcOutkey,
    rule [0xF0, 0x04, 0x68, 0x48, 0x14] (some 0x001C) none .noHandler,
    rule [0x44, 0x05, 0xBF, 0x74, 0x00] none none .cdcTmrcancel ]

def s1 : ShapeTable where
  s0 := ⟨6, [⟨0, 0x68⟩, ⟨3, 0x23⟩], by decide⟩
  s1 := ⟨8, [⟨3, 0x23⟩, ⟨4, 0x62⟩], by decide⟩
  s2 := ⟨10, [⟨3, 0x21⟩], by decide⟩

def strapsC0 : Straps :=
  { hwrev := 4, mongpio := 17, cdinfoIvl := 0, mk3En := true, btPresent := false, hasCamera := false }

/-- The reset state at 0 under C0. -/
def c0 : State :=
  { State.reset with
    straps := strapsC0
    strapPins := strapsC0
    params := { Params.unloaded with rules := t1, shapes := s1 } }

/-- `c0` with other rules. -/
def withRules (rs : List RuleEntry) (s : State) : State := { s with params := { s.params with rules := rs } }

/-- Bytes already in the buffer, the last of them at time 1000. -/
def holding (bytes : List Byte) (s : State) : State :=
  { s with buf := layBytes [] 0 bytes, len := bytes.length, lastRx := 1000 }

def fPoll : Frame := [0x68, 0x03, 0x18, 0x01, 0x72]
def fInfo : Frame := [0x68, 0x05, 0x18, 0x38, 0x00, 0x00, 0x4D]
def fStop : Frame := [0x68, 0x05, 0x18, 0x38, 0x01, 0x00, 0x4C]
def fPause : Frame := [0x68, 0x05, 0x18, 0x38, 0x02, 0x00, 0x4F]
def fStart : Frame := [0x68, 0x05, 0x18, 0x38, 0x03, 0x00, 0x4E]
def fDisk : Frame := [0x68, 0x05, 0x18, 0x38, 0x06, 0x03, 0x48]
def fOther : Frame := [0x68, 0x05, 0x18, 0x38, 0x07, 0x01, 0x4B]
def fRotary : Frame := [0xF0, 0x04, 0x3B, 0x49, 0x82, 0x04]
def fTone : Frame := [0xF0, 0x04, 0x68, 0x48, 0x04, 0xD0]
def fKey : Frame := [0xF0, 0x04, 0x68, 0x48, 0x14, 0xC0]
def fImmo : Frame := [0x44, 0x05, 0xBF, 0x74, 0x00, 0x00, 0x8A]
def fMode : Frame := [0x68, 0x04, 0x3B, 0x23, 0x00, 0x74]
def fScenB : Frame := [0xA4, 0x05, 0x80, 0x41, 0x01, 0x01, 0x60]

/-! ### WellFormed: one ill-formed term for each check (R140, R130, R90, R92) -/

theorem test_wf_short_frame : (Instr.dispatch [0x11, 0x01, 0x22]).wf = false := by decide
theorem test_wf_long_frame : (Instr.cdcPoll (List.replicate 65 0x00)).wf = false := by decide
theorem test_wf_empty_checksum : (Instr.checksum []).wf = false := by decide
theorem test_wf_bounds : (Instr.log (List.replicate 64 0x00)).wf = true ∧ (Instr.log [1, 2, 3, 4]).wf = true ∧
    (Instr.checksum [0x00]).wf = true := by decide
theorem test_shape_too_short : errOf (loadShape ⟨3, []⟩) = some (.shapeLength 3) := by decide
theorem test_shape_too_long : errOf (loadShape ⟨65, []⟩) = some (.shapeLength 65) := by decide
theorem test_shape_too_many_conditions :
    errOf (loadShape ⟨64, List.replicate 9 ⟨0, 0⟩⟩) = some (.shapeConditions 9) := by decide
theorem test_shape_offset_outside : errOf (loadShape ⟨6, [⟨6, 0x23⟩]⟩) = some .shapeOffset := by decide
theorem test_shape_table_of_two : errOf (loadShapes [⟨6, []⟩, ⟨6, []⟩]) = some (.shapeCount 2) := by decide

/-- A raw entry with pattern bytes `01 02 03 …`. -/
def rawEntry (plen : BitVec 5) (hid : Byte) : RawRule where
  plen := plen
  pfx := Vector.ofFn (fun i => BitVec.ofNat 8 (i.val + 1))
  keyV := true
  key := 0x0067
  cmdV := false
  cmd := 9
  hid := hid

theorem test_rule_pattern_too_long : errOf (loadRule (rawEntry 17 0x00)) = some (.patternTooLong 17) := by decide
theorem test_rule_reserved_low : errOf (loadRule (rawEntry 2 0x0A)) = some (.reservedHandler 0x0A) := by decide
theorem test_rule_reserved_high : errOf (loadRule (rawEntry 16 0x7F)) = some (.reservedHandler 0x7F) := by decide
theorem test_rule_loads : (okOf (loadRule (rawEntry 2 0x80))) =
    some (rule [0x01, 0x02] (some 0x0067) none (.ext 0)) := by decide
theorem test_rule_table_refused_whole : errOf (loadRules [rawEntry 0 0, rawEntry 2 0x0A]) =
    some (.reservedHandler 0x0A) := by decide

/-! ### Decode: words written bit by bit from R85, R87, R89 -/

theorem test_decode_reset : okOf (decode (.port (.rst 5))) = some (.reset 5) := by decide
theorem test_decode_none : okOf (decode (.port (.ev 0b000#3 0xAA 7))) = some .noEvent := by decide
theorem test_decode_rxbyte : okOf (decode (.port (.ev 0b001#3 0b01101000#8 0x3E8))) = some (.rxbyte 0x68 1000) := by decide
theorem test_decode_tick : okOf (decode (.port (.ev 0b010#3 0xFF 0x32))) = some (.tick 50) := by decide
theorem test_decode_infotmr : okOf (decode (.port (.ev 0b011#3 0 0))) = some .infotmr := by decide
theorem test_decode_rxfault : okOf (decode (.port (.ev 0b100#3 0 0))) = some .rxfault := by decide
theorem test_decode_reserved_events : errOf (decode (.port (.ev 0b101#3 0 0))) = some (.reservedEvent 5) ∧
    errOf (decode (.port (.ev 0b110#3 0 0))) = some (.reservedEvent 6) ∧
    errOf (decode (.port (.ev 0b111#3 0 0))) = some (.reservedEvent 7) := by decide
theorem test_decode_cdcPoll : okOf (decode (.handler 0b00000001#8 fPoll)) = some (.cdcPoll fPoll) := by decide
theorem test_decode_cdcInforeq : okOf (decode (.handler 0b00000010#8 fInfo)) = some (.cdcInforeq fInfo) := by decide
theorem test_decode_cdcEnter : okOf (decode (.handler 0b00000011#8 fMode)) = some (.cdcEnter fMode) := by decide
theorem test_decode_cdcStop : okOf (decode (.handler 0b00000100#8 fStop)) = some (.cdcStop fStop) := by decide
theorem test_decode_cdcPause : okOf (decode (.handler 0b00000101#8 fPause)) = some (.cdcPause fPause) := by decide
theorem test_decode_cdcStart : okOf (decode (.handler 0b00000110#8 fStart)) = some (.cdcStart fStart) := by decide
theorem test_decode_cdcDiskchg : okOf (decode (.handler 0b00000111#8 fDisk)) = some (.cdcDiskchg fDisk) := by decide
theorem test_decode_cdcOutkey : okOf (decode (.handler 0b00001000#8 fTone)) = some (.cdcOutkey fTone) := by decide
theorem test_decode_cdcTmrcancel : okOf (decode (.handler 0b00001001#8 fImmo)) = some (.cdcTmrcancel fImmo) := by decide
theorem test_decode_hext : okOf (decode (.handler 0b10000000#8 fPoll)) = some (.hext 0 fPoll) ∧
    okOf (decode (.handler 0b11111111#8 fPoll)) = some (.hext 127 fPoll) := by decide
theorem test_decode_reserved_hids : errOf (decode (.handler 0b00001010#8 fPoll)) = some (.reservedHandler 0x0A) ∧
    errOf (decode (.handler 0b01111111#8 fPoll)) = some (.reservedHandler 0x7F) ∧
    errOf (decode (.handler 0b00000000#8 fPoll)) = some .noHandlerId := by decide
theorem test_decode_rotary : okOf (decode (.frame
    [0b11110000#8, 0b00000100#8, 0b00111011#8, 0b01001001#8, 0b10000010#8, 0b00000100#8])) =
    some (.ruleRotary 0x82 0x04) := by decide
theorem test_decode_not_rotary : errOf (decode (.frame [0xF0, 0x04, 0x3B, 0x48, 0x82, 0x05])) = some .unknownFrame ∧
    errOf (decode (.frame [0xF0, 0x04, 0x3B, 0x49, 0x82])) = some .unknownFrame := by decide
/-- The table's own words: RXBYTE, CDC_DISKCHG, HEXT, RULE_ROTARY, and rows without bits. -/
theorem test_table_words : decodeTableWord 8 0x01 = some (.rxbyte 0 0) ∧
    decodeTableWord 8 0x07 = some (.cdcDiskchg zeroFrame) ∧ decodeTableWord 8 0x80 = some (.hext 0 zeroFrame) ∧
    decodeTableWord 32 0xF0043B49 = some (.ruleRotary 0 0) ∧ decodeTableWord 0 0 = none := by decide
/-- A placed table word runs at the very next step: TICK, CDC_DISKCHG's frame is dispatched, the rotary frame goes out. -/
theorem test_withFetchWord_tick :
    (nextOf (step (State.reset.withFetchWord 8 2))).map State.tick600 = some 1 := by decide
theorem test_withFetchWord_rotary :
    ((nextOf (step (State.reset.withFetchWord 32 0xF0043B49))).map State.actions).map List.length = some 2 := by decide
theorem test_kinds : okOf (decodeKind 4) = some .stopped ∧ errOf (decodeKind 5) = some (.reservedKind 5) := by decide
/-- R94: two frames back to back, cut off one by one; a cut frame; the length byte 63. -/
theorem test_parseWire : okOf (parseWire (fPoll ++ fStart)) = some (fPoll, fStart) ∧
    errOf (parseWire [0x68, 0x03, 0x18]) = some .frameCut ∧
    errOf (parseWire [0x10, 0x3F, 0x00]) = some (.frameLength 65) := by decide

/-! ### Events -/

theorem test_reset_V_EX3 : nextOf (exec (.reset 2000)
      { holding [0x68] c0 with halted := true, infoLive := true, cdPolled := true, keyboardBlocked := false }) =
    some { c0 with lastRx := 2000 } := by decide
theorem test_rxfault_V_EX1 : nextOf (exec .rxfault c0) = some { c0 with halted := true, actions := [.halt .ioFail] } := by
  decide
theorem test_halted_V_EX2 : [.rxbyte 0x68 10, .tick 50, .infotmr, .rxfault].map
      (fun i => nextOf (exec i { c0 with halted := true, infoLive := true })) =
    List.replicate 4 (some { c0 with halted := true, infoLive := true }) := by decide
theorem test_reserved_event_V_EX4 : nextOf (step { c0 with inbox := [[.ev 6 0x68 10], [.ev 2 0 50]] }) =
    some { c0 with inbox := [[.ev 2 0 50]] } := by decide
theorem test_none_V_EX5 : nextOf (exec .noEvent c0) = some c0 := by decide
/-- R224, R225: a byte, a tick and a fault ready together: the fault, the byte, then the tick. -/
theorem test_priority : nextWord [[.ev 2 0 50, .ev 1 0x68 50, .ev 4 0 0]] =
    (.ev 4 0 0, [[.ev 2 0 50, .ev 1 0x68 50]]) ∧
    nextWord [[.ev 2 0 50, .ev 1 0x68 50]] = (.ev 1 0x68 50, [[.ev 2 0 50]]) := by decide

/-! ### FrameAssembler -/

theorem test_rxbyte_V_FA1 : acts (.rxbyte 0x72 1008) (holding [0x68, 0x03, 0x18, 0x01] c0) =
    some [.log fPoll false, .tx .present] := by decide
theorem test_rxbyte_V_FA14 : after State.len (.rxbyte 0x01 1001) (holding [0x68, 0xFF, 0x18] c0) = some 4 := by decide
theorem test_resync_V_FA2 : after State.len (.resync 1064) (holding [0x68, 0x03, 0x18] c0) = some 3 := by decide
theorem test_resync_V_FA3 : after State.len (.resync 1065) (holding [0x68, 0x03, 0x18] c0) = some 0 := by decide
theorem test_append_V_FA9 : after (fun s => (s.len, Memory.read s.buf 63)) (.append 0x2E)
    (holding ([0x10, 0x3E] ++ List.replicate 61 0x00) c0) = some (64, some 0x2E) := by decide
theorem test_append_V_FA10 : after (fun s => (s.len, Memory.read s.buf 62, Memory.read s.buf 63)) (.append 0x45)
    (holding ([0x10, 0x3F] ++ List.replicate 61 0x3D ++ [0x3E]) c0) = some (64, some 0x3D, some 0x45) := by decide
theorem test_complete_V_FA8 : after (fun s => (s.len, s.actions)) .complete (holding [0x11, 0x02, 0x22, 0x31] c0) =
    some (0, [.log [0x11, 0x02, 0x22, 0x31] false, .rxnote [0x11, 0x02, 0x22, 0x31]]) := by decide
theorem test_complete_V_FA7 : after (fun s => (s.len, s.actions)) .complete (holding [0x11, 0x01, 0x22] c0) =
    some (3, []) := by decide

/-! ### ChecksumValidator -/

theorem test_checksum_V_CK1 : after State.result (.checksum fScenB) c0 = some (.verdict true) := by decide
theorem test_checksum_V_CK4_V_CK9 :
    after State.result (.checksum [0xA4, 0x05, 0x80, 0x41, 0x01, 0x01, 0xE0]) c0 = some (.verdict false) ∧
    after State.result (.checksum [0x00]) c0 = some (.verdict true) := by decide

/-! ### EventDispatcher -/

theorem test_dispatch_V_DP4 : acts (.dispatch fMode) c0 = some [.log fMode false, .video .pi, .rxnote fMode] := by decide
theorem test_dispatch_V_DP11 : acts (.dispatch fMode)
      (withRules [rule [0x68, 0x04, 0x3B, 0x23] (some 0x0067) none .cdcEnter] c0) =
    some [.log fMode false, .video .pi, .key 0x0067, .video .pi] := by decide
theorem test_log_V_CK2 : acts (.log [0x68, 0x0C, 0xFF, 0x24, 0x01, 0x00, 0x20, 0x35, 0x3A, 0x30, 0x34, 0x50, 0x4D, 0x78]) c0 =
    some [.log [0x68, 0x0C, 0xFF, 0x24, 0x01, 0x00, 0x20, 0x35, 0x3A, 0x30, 0x34, 0x50, 0x4D, 0x78] true] := by decide
theorem test_cdcheur_V_DP5 : after (fun s => (s.actions, s.keyboardBlocked, s.cdPlay)) (.cdcheur fMode)
    { c0 with straps := { strapsC0 with hwrev := 3 } } = some ([], false, .playing) := by decide
theorem test_cdcheur_wrong_length : nextOf (exec (.cdcheur (fMode ++ [0x00])) c0) = some c0 := by decide
theorem test_radiocnt_V_DP15 : after State.radioMessageCount (.radiocnt fPoll) { c0 with radioMessageCount := 0xFFFF } =
    some 0xFFFF := by decide
theorem test_radiocnt_V_DP16 : after State.radioMessageCount (.radiocnt fPoll)
    { c0 with params := { c0.params with radioAddr := 0x50 } } = some 0 := by decide
theorem test_lookup_V_DP1_V_DP2 : after State.result (.lookup fStart) c0 = some (.entry (some 4)) ∧
    after State.result (.lookup fOther) c0 = some (.entry (some 7)) := by decide
theorem test_lookup_V_DP8 : after State.result (.lookup [0x11, 0x02, 0x22, 0x31])
    (withRules [rule [0x11, 0x02, 0x22, 0x31, 0x00] (some 1) none .noHandler] c0) = some (.entry none) := by decide
theorem test_fire_V_DP3 : acts (.fire (rule [0x68] (some 0x0067) (some 7) .noHandler) fOther) c0 = some [.cmd 7] := by
  decide
theorem test_fire_V_DP12 : after (fun s => (s.actions, s.keyboardBlocked))
      (.fire (rule [0xF0, 0x04, 0x68, 0x48, 0x04] (some 0x0067) none .cdcOutkey) fTone) { c0 with keyboardBlocked := false } =
    some ([.key 0x0067, .video .bmw], true) := by decide
theorem test_hext_V_D : nextOf (exec (.hext 0 fRotary) c0) = some { c0 with actions := [.hext 0x80 fRotary] } := by decide
theorem test_unmatched : nextOf (exec (.unmatched fScenB) c0) = some { c0 with actions := [.rxnote fScenB] } := by decide
theorem test_ruleRotary_V_D : acts (.ruleRotary 0x82 0x04) { c0 with keyboardBlocked := false } =
    some [.log fRotary false, .hext 0x80 fRotary] := by decide

/-! ### CdChangerEmulator -/

theorem test_cdcPoll_V_CD1 : after (fun s => (s.actions, cdView s)) (.cdcPoll fPoll) c0 =
    some ([.tx .present], .polled) := by decide
theorem test_cdcInforeq_V_CD10 : after (fun s => (s.actions, s.infoLive)) (.cdcInforeq fInfo)
      { c0 with cdPlay := .playing, straps := { strapsC0 with cdinfoIvl := 5 } } =
    some ([.tx .playing, .unmute, .tmrArm 5], true) := by decide
theorem test_cdcInforeq_V_CD11 : acts (.cdcInforeq fInfo)
      { c0 with cdPlay := .playing, infoLive := true, straps := { strapsC0 with cdinfoIvl := 5 } } =
    some [.tx .playing, .unmute, .tmrCancel, .tmrArm 5] := by decide
theorem test_cdcEnter_V_DP10 : after (fun s => (s.actions, s.keyboardBlocked)) (.cdcEnter fMode) c0 =
    some ([.video .pi], false) := by decide
theorem test_cdcStop_V_CD3 : after (fun s => (s.actions, s.cdPlay)) (.cdcStop fStop) { c0 with cdPlay := .playing } =
    some ([.tx .stopped], .stopped) := by decide
theorem test_cdcPause_V_CD4 : after (fun s => (s.actions, s.cdPlay)) (.cdcPause fPause) { c0 with cdPlay := .playing } =
    some ([.tx .paused], .paused) := by decide
theorem test_cdcStart_V_CD2 : after (fun s => (s.actions, s.cdPlay)) (.cdcStart fStart) { c0 with cdPlay := .stopped } =
    some ([.tx .playing], .playing) := by decide
theorem test_cdcDiskchg_V_CD16 : after (fun s => (s.actions, s.cdPlay)) (.cdcDiskchg fDisk) c0 =
    some ([.tx .playing], .none) := by decide
theorem test_cdcDiskchg_V_CD17_V_CD18 : acts (.cdcDiskchg [0x68, 0x05, 0x18, 0x38, 0x06, 0x03, 0x00]) c0 = some [] ∧
    acts (.cdcDiskchg fDisk) { c0 with params := { c0.params with dcCkOff := 7 } } = some [] := by decide
theorem test_cdcOutkey_V_CD19 : after (fun s => (s.actions, s.keyboardBlocked)) (.cdcOutkey fTone)
    { c0 with keyboardBlocked := false } = some ([.video .bmw], true) := by decide
theorem test_cdcOutkey_V_CD20 : after (fun s => (s.actions, s.keyboardBlocked)) (.cdcOutkey fTone)
      { c0 with keyboardBlocked := false, straps := { strapsC0 with hwrev := 3 } } = some ([], true) := by decide
theorem test_cdcTmrcancel_V_CD14 : after (fun s => (s.actions, s.infoLive)) (.cdcTmrcancel fImmo)
    { c0 with infoLive := true } = some ([.tmrCancel], false) := by decide
theorem test_cdcTmrcancel_V_CD15 : acts (.cdcTmrcancel fImmo) c0 = some [] := by decide
theorem test_infotmr_V_CD12 : acts .infotmr { c0 with infoLive := true, cdPlay := .stopped } = some [.tx .stopped] := by
  decide
theorem test_infotmr_V_CD13 : nextOf (exec .infotmr c0) = some c0 := by decide
theorem test_inforeply_V_CD7_V_CD8 : acts .inforeply { c0 with cdPlay := .playing } = some [.tx .playing, .unmute] ∧
    acts .inforeply { c0 with cdPlay := .paused } = some [.tx .paused] := by decide
theorem test_inforeply_V_CD6 : acts .inforeply c0 = some [.tx .stopped] := by decide
theorem test_cdcentry_V_DP4 : after (fun s => (s.actions, s.keyboardBlocked, s.cdPlay)) .cdcentry c0 =
    some ([.video .pi], false, .playing) := by decide
theorem test_announce_V_TK7 : after (fun s => (s.actions, s.radioMessageCount)) .announce
    { c0 with radioMessageCount := 2 } = some ([.tx .announce], 0) := by decide
theorem test_announce_V_TK9 : after (fun s => (s.actions, s.radioMessageCount)) .announce
    { c0 with radioMessageCount := 2, cdPolled := true } = some ([], 2) := by decide

/-! ### Tick -/

theorem test_tick_V_TK7 : after (fun s => (s.actions, s.tick600)) (.tick 30000)
      { c0 with tick600 := 599, radioMessageCount := 2 } = some ([.tx .announce, .txqService false], 0) := by decide
theorem test_tick_V_TK11 : after (fun s => (s.actions, s.tick600)) (.tick 30000)
      { c0 with tick600 := 598, radioMessageCount := 2 } = some ([.txqService false], 599) := by decide
theorem test_tickcnt_V_TK10 : after (fun s => (s.actions, s.tick600)) .tickcnt
      { c0 with tick600 := 599, radioMessageCount := 2, straps := { strapsC0 with mk3En := false } } = some ([], 0) := by
  decide
theorem test_winsvc_V_TK2_V_TK3 :
    after (fun s => (s.actions, s.sendWindowOpen)) (.winsvc 1099) { c0 with lastRx := 1000 } =
      some ([.txqService false], false) ∧
    after (fun s => (s.actions, s.sendWindowOpen)) (.winsvc 1100) { c0 with lastRx := 1000 } =
      some ([.txqService false], true) := by decide
theorem test_winsvc_V_TK5 : after State.sendWindowOpen (.winsvc 5000) (holding [0x68, 0x03] c0) = some false := by decide

/-! ### Levels and codes (R47, R31, R216) -/

theorem test_levels : (levels (holding [0x68] { c0 with cdPlay := .playing })).idle = false ∧
    (levels (holding [0x68] { c0 with cdPlay := .playing })).playing = true ∧ (levels c0).idle = true := by decide
theorem test_codes : cdPlayCode .paused = 2 ∧ cdPlayOfCode 3 = .stopped ∧ causeCode .ioFail = 5 ∧
    extHid 127 = 0xFF := by decide

/-! ### Witnesses: for each statement with hypotheses, operands and a state that meet them, at boundary values -/

/-- A 64-byte frame with length byte 62 (V-FA9). -/
def f64 : Frame := [0x10, 0x3E] ++ List.replicate 61 0x00 ++ [0x2E]

theorem test_witness_EventCodesAndNoEvent : 5 ≤ (5 : BitVec 3).toNat ∧ 5 ≤ (7 : BitVec 3).toNat := by decide

theorem test_witness_ReservedEventIsIgnored :
    nextWord [[.ev 5 0x68 10], [.ev 2 0 50]] = (.ev 5 0x68 10, [[.ev 2 0 50]]) ∧ 5 ≤ (5 : BitVec 3).toNat := by decide

theorem test_witness_ResetSetsEveryElement : { c0 with halted := true }.halted = true ∧
    okOf (decodePort (.ev 4 0 0)) = some .rxfault := by decide

theorem test_witness_RxfaultHaltsAndHaltedIgnoresEvents : c0.halted = false ∧ { c0 with halted := true }.halted = true := by
  decide

theorem test_witness_HaltedStepOnlyTakesItsWord :
    { c0 with halted := true, inbox := [[.ev 1 0x68 10]] }.halted = true ∧
    nextWord [[.ev 1 0x68 10]] = (.ev 1 0x68 10, []) ∧ ∀ t, PortWord.ev 1 0x68 10 ≠ .rst t :=
  ⟨rfl, by decide, fun _ => PortWord.noConfusion⟩

theorem test_witness_StepRunsTheDecodedEvent :
    nextWord [[.ev 2 0 50], [.ev 4 0 0]] = (.ev 2 0 50, [[.ev 4 0 0]]) ∧ okOf (decodePort (.ev 2 0 50)) = some (.tick 50) := by
  decide

theorem test_witness_PortPresentsTheHighestPriority :
    (∀ x ∈ [PortWord.ev 2 0 50, .ev 3 0 0], portPriority (.ev 1 0x68 50) < portPriority x) ∧
    ∀ x ∈ [PortWord.ev 1 0x03 50, .ev 2 0 50], portPriority (.ev 1 0x68 50) ≤ portPriority x := by decide

theorem test_witness_RxbyteRunsItsStepsInOrder : { c0 with halted := true }.halted = true ∧ c0.halted = false := by decide

/-- APPEND with the last free slot, and with the buffer full. -/
theorem test_witness_AppendStoresOneByteBounded :
    (holding (List.replicate 63 0x00) c0).len = 63 ∧ (holding f64 c0).len = 64 ∧ (64 : Nat) ≤ 64 := by decide

/-- COMPLETE: a whole frame, one byte short of it, and the three bytes below the minimum. -/
theorem test_witness_CompleteEmits_whole : (holding f64 c0).len ≤ 64 ∧ f64.length = (holding f64 c0).len ∧
    (∀ a, a < 64 → (holding f64 c0).buf.read a = f64[a]?) ∧ 4 ≤ f64.length ∧ f64[1]? = some 0x3E ∧
    (0x3E : Byte).toNat + 2 = f64.length := by decide

theorem test_witness_CompleteEmits_short : (holding [0x68, 0x03, 0x18, 0x01] c0).len = 4 ∧
    (∀ a, a < 4 → (holding [0x68, 0x03, 0x18, 0x01] c0).buf.read a = [0x68, 0x03, 0x18, (0x01 : Byte)][a]?) ∧
    (0x03 : Byte).toNat + 2 ≠ 4 ∧ ¬ 4 ≤ [0x11, 0x01, (0x22 : Byte)].length := by decide

/-- RXBYTE that waits: after a gap of 65 ms; after a gap of 64 ms with LEN 2; with LEN 3 and length byte 3; with LEN 64. -/
theorem test_witness_RxbyteStoresAndWaits_gap : (holding f64 c0).halted = false ∧ (holding f64 c0).len ≤ 64 ∧
    0 = (if 64 < ((1065 : Time) - (holding f64 c0).lastRx).toNat then 0 else (holding f64 c0).len) ∧ 0 < 3 := by decide
theorem test_witness_RxbyteStoresAndWaits_short : (holding [0x68, 0x03] c0).halted = false ∧ (holding [0x68, 0x03] c0).len ≤ 64 ∧
    2 = (if 64 < ((1064 : Time) - (holding [0x68, 0x03] c0).lastRx).toNat then 0 else (holding [0x68, 0x03] c0).len) ∧ 2 < 3 := by
  decide
theorem test_witness_RxbyteStoresAndWaits_unfinished : (holding [0x68, 0x03, 0x18] c0).halted = false ∧
    3 = (if 64 < ((1064 : Time) - (holding [0x68, 0x03, 0x18] c0).lastRx).toNat then 0 else (holding [0x68, 0x03, 0x18] c0).len) ∧
    (holding [0x68, 0x03, 0x18] c0).buf.read 1 = some 0x03 ∧ (0x03 : Byte).toNat + 2 ≠ min (3 + 1) 64 := by decide
theorem test_witness_RxbyteStoresAndWaits_full :
    (holding (0x10 :: 0x3F :: List.replicate 62 0x00) c0).halted = false ∧
    64 = (if 64 < ((1064 : Time) - (holding (0x10 :: 0x3F :: List.replicate 62 0x00) c0).lastRx).toNat then 0
      else (holding (0x10 :: 0x3F :: List.replicate 62 0x00) c0).len) ∧
    (holding (0x10 :: 0x3F :: List.replicate 62 0x00) c0).buf.read 1 = some 0x3F ∧
    (0x3F : Byte).toNat + 2 ≠ min (64 + 1) 64 := by decide

/-- RXBYTE that completes: the shortest frame and the longest. -/
theorem test_witness_RxbyteDispatches_short : (holding [0x11, 0x02, 0x22] c0).halted = false ∧
    ((1064 : Time) - (holding [0x11, 0x02, 0x22] c0).lastRx).toNat ≤ 64 ∧ (holding [0x11, 0x02, 0x22] c0).len = 3 ∧
    (∀ a, a < 3 → (holding [0x11, 0x02, 0x22] c0).buf.read a = [0x11, 0x02, (0x22 : Byte)][a]?) ∧
    (0x02 : Byte).toNat + 2 = 3 + 1 := by decide
theorem test_witness_RxbyteDispatches_long : (holding f64.dropLast c0).halted = false ∧
    ((1064 : Time) - (holding f64.dropLast c0).lastRx).toNat ≤ 64 ∧ (holding f64.dropLast c0).len = 63 ∧ f64.dropLast.length = 63 ∧
    (∀ a, a < 63 → (holding f64.dropLast c0).buf.read a = f64.dropLast[a]?) ∧ f64.dropLast[1]? = some 0x3E ∧
    (0x3E : Byte).toNat + 2 = 63 + 1 := by decide

theorem test_witness_RxbyteAlwaysStampsAndClosesTheWindow :
    c0.halted = false ∧ ∃ u, exec (.rxbyte 0x68 1160) { c0 with lastRx := 1000, sendWindowOpen := true } = .next u :=
  ⟨rfl, _, rfl⟩

/-- Length bytes 0, 1 and 63; LEN 2 and 64; a gap of 64 ms. -/
theorem test_witness_ImpossibleLengthNeverCompletes : (holding [0x11, 0x00] c0).halted = false ∧
    (holding (0x10 :: 0x3F :: List.replicate 62 0x00) c0).halted = false ∧
    (holding [0x11, 0x00] c0).buf.read 1 = some 0x00 ∧ (holding [0x11, 0x01] c0).buf.read 1 = some 0x01 ∧
    (holding (0x10 :: 0x3F :: List.replicate 62 0x00) c0).buf.read 1 = some 0x3F ∧ (holding [0x11, 0x00] c0).len = 2 ∧
    (holding (0x10 :: 0x3F :: List.replicate 62 0x00) c0).len = 64 ∧ (0x01 : Byte).toNat < 2 ∧ 62 < (0x3F : Byte).toNat ∧
    ((1064 : Time) - (holding [0x11, 0x00] c0).lastRx).toNat ≤ 64 := by decide

/-- The shortest and the longest frame, 64 ms apart, a second frame waiting behind. -/
theorem test_witness_FedFrameIsDispatchedWhole : c0.halted = false ∧ c0.len = 0 ∧ 4 ≤ [0x11, 0x02, 0x22, (0x31 : Byte)].length ∧
    (0x02 : Byte).toNat + 2 = 4 ∧ (64 : Time).toNat ≤ 64 ∧ f64.length ≤ 64 ∧ f64[1]? = some 0x3E ∧
    (0x3E : Byte).toNat + 2 = f64.length ∧
    { c0 with inbox := feed f64 1000 64 ++ feed fPoll 9000 2 }.inbox = feed f64 1000 64 ++ feed fPoll 9000 2 :=
  ⟨rfl, rfl, by decide, by decide, by decide, by decide, by decide, by decide, rfl⟩

/-- V-CK1 against V-CK5 (two flips of bit 0: still valid) and V-CK3 (one: not). -/
theorem test_witness_ChecksumDetectsOddBitFlips :
    after State.result (.checksum fScenB) c0 = some (.verdict true) ∧ fScenB ≠ [] ∧
    fScenB.length = [0xA4, 0x05, 0x80, 0x40, 0x00, 0x01, (0x60 : Byte)].length ∧
    after State.result (.checksum [0xA4, 0x05, 0x80, 0x40, 0x00, 0x01, 0x60]) c0 = some (.verdict true) ∧
    fScenB[3]? = some 0x41 ∧ fScenB.set 3 (0x41 ^^^ BitVec.twoPow 8 0) = [0xA4, 0x05, 0x80, 0x40, 0x01, 0x01, 0x60] ∧
    fScenB[6]? = some 0x60 ∧ (7 : Nat) < 8 := by decide

theorem test_witness_DispatchRunsItsStepsInOrder : fPoll ≠ [] ∧ lookupIn c0.params.rules fPoll = some 0 ∧
    lookupIn c0.params.rules fScenB = none := by decide

theorem test_witness_HeuristicEntersOnAnyShape_match : fMode.length = c0.params.shapes.s0.slen ∧
    ∀ c ∈ c0.params.shapes.s0.conds, fMode[c.off]? = some c.val := by decide
/-- A frame of a shape's length whose condition fails. -/
theorem test_witness_HeuristicEntersOnAnyShape_none : fTone.length = c0.params.shapes.s0.slen ∧
    (∃ c ∈ c0.params.shapes.s0.conds, fTone[c.off]? ≠ some c.val) ∧ fTone.length ≠ c0.params.shapes.s1.slen ∧
    fTone.length ≠ c0.params.shapes.s2.slen := by decide

theorem test_witness_RadioFramesAreCounted : fPoll[0]? = some c0.params.radioAddr ∧ fTone[0]? ≠ some c0.params.radioAddr := by
  decide

theorem test_witness_FireAppliesKeyCommandHandler :
    (rule [0x68] (some 0x67) (some 7) .noHandler).handler = .noHandler ∧
    okOf ((rule [0x68] (some 0x67) (some 7) .cdcOutkey).handler.toInstr fTone) = some (.cdcOutkey fTone) ∧
    (if c0.keyboardBlocked then [] else [Action.key 0x67]) = [] ∧
    (if { c0 with keyboardBlocked := false }.keyboardBlocked then [] else [Action.key 0x67]) = [.key 0x67] := by decide

/-- Entries 4 and 7 of T1 both match the start command (V-DP1). -/
theorem test_witness_ShadowedEntryHasNoEffect : fStart ≠ [] ∧ (4 : Nat) < 7 ∧
    t1[4]? = some (rule [0x68, 0x05, 0x18, 0x38, 0x03] none none .cdcStart) ∧
    t1[7]? = some (rule [0x68, 0x05, 0x18, 0x38] (some 0x0067) (some 7) .noHandler) ∧
    fStart.take 5 = [0x68, 0x05, 0x18, 0x38, 0x03] ∧ fStart.take 4 = [0x68, 0x05, 0x18, 0x38] ∧ 5 ≤ fStart.length := by decide

theorem test_witness_DispatchActionShape : fMode ≠ [] := by decide

/-- A corrupt poll is taken by entry 0 (V-DP6), a corrupt stop by entry 2 and by none before it. -/
theorem test_witness_CorruptCommandStillActs_poll :
    c0.params.rules[0]? = some (rule [0x68, 0x03, 0x18, 0x01] none none .cdcPoll) ∧
    ([0x68, 0x03, 0x18, 0x01, 0x00] : Frame).take 4 = [0x68, 0x03, 0x18, 0x01] ∧
    checksumValid [0x68, 0x03, 0x18, 0x01, 0x00] = false := by decide
theorem test_witness_CorruptCommandStillActs_stop :
    c0.params.rules[2]? = some (rule [0x68, 0x05, 0x18, 0x38, 0x01] none none .cdcStop) ∧
    ([0x68, 0x05, 0x18, 0x38, 0x01, 0x00, 0x00] : Frame).take 5 = [0x68, 0x05, 0x18, 0x38, 0x01] ∧
    (∀ e' ∈ t1.take 2, ¬ (e'.pfx.length ≤ 7 ∧
      ([0x68, 0x05, 0x18, 0x38, 0x01, 0x00, 0x00] : Frame).take e'.pfx.length = e'.pfx)) ∧
    checksumValid [0x68, 0x05, 0x18, 0x38, 0x01, 0x00, 0x00] = false := by decide

theorem test_witness_RotaryFrameIsPassedOut :
    (rule rotaryPattern none none (.ext 0)).pfx = [0xF0, 0x04, 0x3B, 0x49] ∧
    (withRules [rule rotaryPattern none none (.ext 0)] c0).params.rules = [rule rotaryPattern none none (.ext 0)] ∧
    anyShapeMatches c0.params.shapes fRotary = false ∧ c0.params.radioAddr ≠ 0xF0 := by decide

theorem test_witness_InfoReplyFollowsPlayState : { c0 with cdPlay := .playing }.cdPlay = .playing ∧
    { c0 with cdPlay := .paused }.cdPlay = .paused ∧ { c0 with cdPlay := .stopped }.cdPlay = .stopped ∧ c0.cdPlay = .none := by
  decide

theorem test_witness_InfoRequestRepliesThenRearms : c0.straps.cdinfoIvl = 0 ∧
    ({ strapsC0 with cdinfoIvl := 1 }).cdinfoIvl ≠ 0 ∧ c0.infoLive = false ∧ { c0 with infoLive := true }.infoLive = true := by
  decide

theorem test_witness_InfoTimerRepeatsTheReply : { c0 with infoLive := true }.halted = false ∧
    { c0 with infoLive := true }.infoLive = true ∧ { c0 with halted := true }.halted = true ∧ c0.infoLive = false := by decide

theorem test_witness_ModeEntry_OutsideKey_hwrev : ({ strapsC0 with hwrev := 3 }).hwrev.toNat < 4 ∧
    4 ≤ c0.straps.hwrev.toNat := by decide

/-- V-CD16; a wrong check byte; an offset outside the frame for either byte. -/
theorem test_witness_DiskChangeNeedsItsOwnCheck : fDisk[c0.params.dcCkOff]? = some 0x48 ∧
    fDisk[c0.params.dcPayOff]? = some 0x03 ∧ (0x48 : Byte) = 0x4B ^^^ 0x03 ∧ (0x00 : Byte) ≠ 0x4B ^^^ 0x03 ∧
    fDisk[7]? = none ∧ fPoll[c0.params.dcPayOff]? = none := by decide

theorem test_witness_TimerCancelIsNeverDoubled : fImmo ∉ c0.params.tmrCancelExcept ∧
    { c0 with infoLive := true }.infoLive = true ∧ fImmo ∈ { c0.params with tmrCancelExcept := [fImmo] }.tmrCancelExcept ∧
    c0.infoLive = false := by decide

theorem test_witness_AnnounceOnlyUnpolledAndHeard : c0.cdPolled = false ∧ 0 < { c0 with radioMessageCount := 1 }.radioMessageCount ∧
    { c0 with cdPolled := true }.cdPolled = true ∧ c0.radioMessageCount = 0 := by decide

theorem test_witness_TickCountsThenServices : { c0 with halted := true }.halted = true ∧ c0.halted = false := by decide

theorem test_witness_TickCountWrapsAndAnnounces : { c0 with tick600 := 598 }.tick600 ≠ 599 ∧
    { c0 with tick600 := 599 }.tick600 = 599 ∧ c0.straps.mk3En = true ∧ ({ strapsC0 with mk3En := false }).mk3En = false := by
  decide

/-- 99 and 100 ms; LEN 1; `MONGPIO` 0 and 1. -/
theorem test_witness_WindowServiceThenOpens : ({ strapsC0 with mongpio := 0 }).mongpio = 0 ∧
    ({ strapsC0 with mongpio := 1 }).mongpio ≠ 0 ∧ 100 ≤ ((1100 : Time) - 1000).toNat ∧ c0.len = 0 ∧
    ((1099 : Time) - 1000).toNat < 100 ∧ (holding [0x68] c0).len ≠ 0 := by decide

/-- A state far from reset that meets the invariant: two bytes held, a live timer, the counters at their ends. -/
def busy : State :=
  { holding [0x68, 0x03] c0 with
    tick600 := 599, radioMessageCount := 0xFFFF, infoLive := true, cdPlay := .paused
    straps := { strapsC0 with cdinfoIvl := 5 }, inbox := [[.ev 2 0 5000]] }

theorem test_witness_busy_inv : Inv busy :=
  ⟨by decide, by decide, by decide, by decide, fun a h => by
    have : a = 0 ∨ a = 1 := by simp only [busy, holding, List.length] at h; omega
    rcases this with rfl | rfl <;> exact ⟨_, rfl⟩,
   fun h => absurd h.1 (by decide), by decide⟩

theorem test_witness_StepKeepsTheInvariant : Inv busy ∧ ∃ u, step busy = .next u := ⟨test_witness_busy_inv, _, rfl⟩

theorem test_witness_NoEventStopsTheBlock : Inv busy := test_witness_busy_inv

/-- Also for TimerDisciplineHolds, PolledAndPlayedUntilReset and OnlyTheAssemblerMovesLen. -/
theorem test_witness_ConfigurationIsNeverWritten : (∃ u, exec (.cdcInforeq fInfo) busy = .next u) ∧
    (∀ t, Instr.cdcInforeq fInfo ≠ .reset t) ∧ (∀ b t, Instr.cdcInforeq fInfo ≠ .rxbyte b t) ∧
    (∀ t, Instr.cdcInforeq fInfo ≠ .resync t) ∧ (∀ b, Instr.cdcInforeq fInfo ≠ .append b) ∧
    Instr.cdcInforeq fInfo ≠ .complete :=
  ⟨⟨_, rfl⟩, fun _ => Instr.noConfusion, fun _ _ => Instr.noConfusion, fun _ => Instr.noConfusion,
    fun _ => Instr.noConfusion, Instr.noConfusion⟩

theorem test_witness_PolledAndPlayedUntilReset : { busy with cdPolled := true }.cdPolled = true ∧ busy.cdPlay ≠ .none := by decide

/-- APPEND with the last free slot and with the buffer full; RXBYTE into a full buffer with no gap, after a gap, and halted; an
operation that writes no slot. -/
theorem test_witness_OnlyAppendWritesTheBuffer_append :
    (∃ u, exec (.append 0x18) (holding f64.dropLast c0) = .next u) ∧ (∃ u, exec (.append 0x18) (holding f64 c0) = .next u) ∧
    (if (holding f64.dropLast c0).len < 64 then (holding f64.dropLast c0).len else 63) = 63 ∧
    (if (holding f64 c0).len < 64 then (holding f64 c0).len else 63) = 63 ∧
    (if busy.len < 64 then busy.len else 63) = 2 := ⟨⟨_, rfl⟩, ⟨_, rfl⟩, by decide, by decide, by decide⟩

theorem test_witness_OnlyAppendWritesTheBuffer_rxbyte :
    (nextOf (exec (.rxbyte 0x18 1064) busy)).isSome = true ∧ (nextOf (exec (.rxbyte 0x18 1065) busy)).isSome = true ∧
    busy.halted = false ∧ 2 = (if 64 < ((1064 : Time) - busy.lastRx).toNat then 0 else busy.len) ∧
    0 = (if 64 < ((1065 : Time) - busy.lastRx).toNat then 0 else busy.len) ∧ min 64 63 = 63 ∧
    nextOf (exec (.rxbyte 0x18 1064) { busy with halted := true }) = some { busy with halted := true } := by decide

theorem test_witness_OnlyAppendWritesTheBuffer_other : (∃ u, exec (.resync 9000) busy = .next u) ∧
    (∀ b, Instr.resync 9000 ≠ .append b) ∧ (∀ b t, Instr.resync 9000 ≠ .rxbyte b t) ∧
    ∀ t, Instr.resync 9000 ≠ .reset t :=
  ⟨⟨_, rfl⟩, fun _ => Instr.noConfusion, fun _ _ => Instr.noConfusion, fun _ => Instr.noConfusion⟩

theorem test_witness_OnlyTheTickOpensTheWindow : c0.sendWindowOpen = false ∧
    after State.sendWindowOpen (.tick 1100) { c0 with lastRx := 1000 } = some true := by decide

theorem test_witness_RxbyteIgnoresTheWindow : c0.halted = false := rfl

theorem test_witness_OnlyTimeDifferencesMatter : c0.halted = false ∧ (∃ u, exec (.rxbyte 0x68 10) c0 = .next u) ∧
    ∃ u, exec (.tick 50) c0 = .next u := ⟨rfl, ⟨_, rfl⟩, _, rfl⟩

theorem test_witness_DecodeOfEncodeIsIdentity : (Instr.hext 127 f64).wf = true ∧
    encode (.hext 127 f64) = some (.handler 0xFF f64) ∧
    okOf (decode (.port (.ev 3 0xAA 7))) = some .infotmr := by decide

/-- Entries: `PLEN` 16 and 17, `HID` 0x09, 0x0A, 0x7F and 0x80. `rawEntry` has nonzero bytes beyond `PLEN` and a nonzero `CMD`
with `CMD_V` 0, and loads without them. -/
theorem test_witness_TableEntries_rule : okOf (loadRule (rawEntry 3 0x09)) =
      some (rule [0x01, 0x02, 0x03] (some 0x0067) none .cdcTmrcancel) ∧
    (okOf (loadRule (rawEntry 16 0x80))).isSome = true ∧ 16 < (rawEntry 17 0).plen.toNat ∧
    0x0A ≤ (rawEntry 0 0x0A).hid.toNat ∧ (rawEntry 0 0x7F).hid.toNat ≤ 0x7F := by decide

/-- Tables: one that loads in order, one with a bad entry behind a good one. -/
theorem test_witness_TableEntries_rules : okOf (loadRules [rawEntry 1 0x01, rawEntry 0 0x80]) =
      some [rule [0x01] (some 0x0067) none .cdcPoll, rule [] (some 0x0067) none (.ext 0)] ∧
    (errOf (loadRules [rawEntry 1 0x01, rawEntry 17 0x00])).isSome = true := by decide

/-- Shapes: lengths 3, 4, 64 and 65; 8 and 9 conditions; an offset one below the length and one at it; tables of two and three. -/
theorem test_witness_TableEntries_shape :
    (errOf (loadShape ⟨3, []⟩)).isSome = true ∧ (okOf (loadShape ⟨4, []⟩)).isSome = true ∧
    (okOf (loadShape ⟨64, List.replicate 8 ⟨63, 0⟩⟩)).isSome = true ∧ (errOf (loadShape ⟨65, []⟩)).isSome = true ∧
    (errOf (loadShape ⟨64, List.replicate 9 ⟨63, 0⟩⟩)).isSome = true ∧ (errOf (loadShape ⟨6, [⟨6, 0⟩]⟩)).isSome = true ∧
    okOf (loadShapes [⟨6, [⟨0, 0x68⟩, ⟨3, 0x23⟩]⟩, ⟨8, [⟨3, 0x23⟩, ⟨4, 0x62⟩]⟩, ⟨10, [⟨3, 0x21⟩]⟩]) = some s1 ∧
    errOf (loadShapes [⟨6, []⟩, ⟨6, []⟩]) = some (.shapeCount 2) ∧
    errOf (loadShapes [⟨6, []⟩, ⟨6, []⟩, ⟨3, []⟩]) = some (.shapeLength 3) := by decide

theorem test_witness_WireFormatRoundTrip : (List.replicate 60 (0x00 : Byte)).length ≤ 60 ∧
    (wireFrame 0x68 0x18 (List.replicate 60 0x00)).length = 64 ∧ wireFrame 0x68 0x18 [0x01] = fPoll := by decide

end Sys2Proof.Tests
end

section
/-! PROOFS. Only differences of time matter (R15). Moving a state in time commutes with every part of RXBYTE and TICK, when
the operand of time is moved with it: no part looks at a time but through `elapsed`. -/

namespace Sys2Proof.Machine

/-- The state moved `d` ms in time: `lastRx` is the only time it holds (R20). -/
def State.delayed (s : State) (d : Time) : State := { s with lastRx := s.lastRx + d }

@[simp] theorem delayed_buf (s : State) (d : Time) : (s.delayed d).buf = s.buf := rfl
@[simp] theorem delayed_len (s : State) (d : Time) : (s.delayed d).len = s.len := rfl
@[simp] theorem delayed_lastRx (s : State) (d : Time) : (s.delayed d).lastRx = s.lastRx + d := rfl
@[simp] theorem delayed_halted (s : State) (d : Time) : (s.delayed d).halted = s.halted := rfl

/-- R15: moving both times by the same amount, modulo 2^32, keeps the difference. -/
theorem elapsed_delayed (t u d : Time) : elapsed (t + d) (u + d) = elapsed t u :=
  congrArg BitVec.toNat (add_sub_add_right_eq_sub t u d)

/-! ### The parts of RXBYTE -/

theorem gapTooLong_delayed (t u d : Time) : gapTooLong (t + d) (u + d) = gapTooLong t u := by
  rw [gapTooLong, gapTooLong, elapsed_delayed]

theorem resync_delayed (t d : Time) (s : State) : resync (t + d) (s.delayed d) = (resync t s).delayed d := by
  rw [resync, resync, delayed_lastRx, gapTooLong_delayed, apply_ite (State.delayed · d)]
  rfl

theorem stampByte_delayed (t d : Time) (s : State) : stampByte (t + d) (s.delayed d) = (stampByte t s).delayed d := rfl

theorem appendByte_delayed (b : Byte) (d : Time) (s : State) :
    appendByte b (s.delayed d) = (appendByte b s).delayed d := by
  rw [appendByte, appendByte, apply_ite (State.delayed · d)]
  rfl

theorem dispatchFrame_keeps_lastRx (f : Frame) (s : State) : (dispatchFrame f s).lastRx = s.lastRx := by
  rw [(dispatchFrame_change f s).frame]

theorem dispatchFrame_delayed (f : Frame) (d : Time) (s : State) :
    dispatchFrame f (s.delayed d) = (dispatchFrame f s).delayed d := by
  unfold State.delayed
  rw [dispatchFrame_lastRx, dispatchFrame_keeps_lastRx]

/-- COMPLETE reads no time: from a delayed state it stops, waits or dispatches exactly as from the state itself. -/
theorem completeFrame_delayed {s u : State} (d : Time) (h : completeFrame s = .next u) :
    completeFrame (s.delayed d) = .next (u.delayed d) := by
  unfold completeFrame at h ⊢
  rw [delayed_len, delayed_buf]
  by_cases hshort : s.len < Config.minFrame
  · rw [if_pos hshort] at h ⊢
    cases h
    rfl
  rw [if_neg hshort] at h ⊢
  cases hlenb : readSlot s.buf 1 with
  | error e => simp [hlenb] at h
  | ok lenb =>
    simp only [hlenb] at h ⊢
    by_cases hwhole : totalLength lenb = s.len
    · rw [if_pos hwhole] at h ⊢
      cases hf : readSlots s.buf 0 s.len with
      | error e => simp [hf] at h
      | ok f =>
        simp only [hf] at h ⊢
        cases h
        exact congrArg Host.Outcome.next (dispatchFrame_delayed f d { s with len := 0 })
    · rw [if_neg hwhole] at h ⊢
      cases h
      rfl

/-! ### The parts of TICK -/

theorem announce_delayed (d : Time) (s : State) : announce (s.delayed d) = (announce s).delayed d := by
  rw [announce_eq, announce_eq, apply_ite (State.delayed · d)]
  rfl

theorem tickCount_delayed (d : Time) (s : State) : tickCount (s.delayed d) = (tickCount s).delayed d := by
  simp only [tickCount, apply_ite (State.delayed · d), ← announce_delayed]
  rfl

theorem windowMayOpen_delayed (t d : Time) (s : State) : windowMayOpen (t + d) (s.delayed d) = windowMayOpen t s := by
  rw [windowMayOpen, windowMayOpen, delayed_lastRx, elapsed_delayed, delayed_len]

theorem serviceWindow_delayed (t d : Time) (s : State) :
    serviceWindow (t + d) (s.delayed d) = (serviceWindow t s).delayed d := by
  rw [serviceWindow_eq, serviceWindow_eq, windowMayOpen_delayed, apply_ite (State.delayed · d)]
  rfl

/-! ### The two events -/

theorem execRxbyte_delayed {s u : State} (b : Byte) (t d : Time) (hs : s.halted = false)
    (h : execRxbyte b t s = .next u) : execRxbyte b (t + d) (s.delayed d) = .next (u.delayed d) := by
  simp only [execRxbyte, delayed_halted, hs, Bool.false_eq_true, if_false] at h ⊢
  rw [resync_delayed, stampByte_delayed, appendByte_delayed]
  exact completeFrame_delayed d h

theorem execTick_delayed {s u : State} (t d : Time) (hs : s.halted = false)
    (h : execTick t s = .next u) : execTick (t + d) (s.delayed d) = .next (u.delayed d) := by
  simp only [execTick, delayed_halted, hs, Bool.false_eq_true, if_false] at h ⊢
  cases h
  rw [tickCount_delayed, serviceWindow_delayed]

/-- Settles O55: both events are their parts one after another, and each part commutes with moving the state in time. -/
theorem onlyTimeDifferencesMatter : Obligations.OnlyTimeDifferencesMatter := by
  unfold Obligations.OnlyTimeDifferencesMatter
  intro s u d t b hs
  exact ⟨execRxbyte_delayed b t d hs, execTick_delayed t d hs⟩

end Sys2Proof.Machine
end

section
/-! PROOFS. What an instruction can change. `exec_cases` says once, for all 33 instructions, which registers one that answers
a next state may have written: RESET, the assembler's operations and the window service have cases of their own, and every
other instruction is quiet. The frame statements are read off these cases. -/

namespace Sys2Proof.Machine

/-! ### Quiet operations -/

/-- `u` differs from `s` in flags, counters, actions and handed-back result at most. -/
structure Quiet (s u : State) : Prop where
  buf            : u.buf = s.buf
  len            : u.len = s.len
  lastRx         : u.lastRx = s.lastRx
  sendWindowOpen : u.sendWindowOpen = s.sendWindowOpen
  straps         : u.straps = s.straps
  strapPins      : u.strapPins = s.strapPins
  inbox          : u.inbox = s.inbox
  params         : u.params = s.params

theorem Quiet.refl (s : State) : Quiet s s := ⟨rfl, rfl, rfl, rfl, rfl, rfl, rfl, rfl⟩

/-- What a dispatch or a part of one does is quiet. -/
theorem EmuChange.quiet {s u : State} (h : EmuChange s u) : Quiet s u := by
  rw [h.frame]
  exact ⟨rfl, rfl, rfl, rfl, rfl, rfl, rfl, rfl⟩

theorem tickCount_quiet (s : State) : Quiet s (tickCount s) := by
  rw [tickCount_frame]
  exact ⟨rfl, rfl, rfl, rfl, rfl, rfl, rfl, rfl⟩

theorem handBack_quiet (s : State) (r : Result) : Quiet s { s with result := r } :=
  ⟨rfl, rfl, rfl, rfl, rfl, rfl, rfl, rfl⟩

theorem raiseHalt_quiet (c : Cause) (s : State) : Quiet s (raiseHalt c s) :=
  ⟨rfl, rfl, rfl, rfl, rfl, rfl, rfl, rfl⟩

theorem infoTimer_change (s : State) : EmuChange s (infoTimer s) := by
  unfold infoTimer
  split
  · exact .refl s
  · split
    · exact infoReply_change s
    · exact .refl s

/-! ### The assembler and the window -/

/-- Of the registers a quiet operation keeps, the window service writes the window at most. -/
theorem serviceWindow_quiet (t : Time) (s : State) :
    Quiet { s with sendWindowOpen := (serviceWindow t s).sendWindowOpen } (serviceWindow t s) := by
  rw [serviceWindow_eq]
  split <;> exact ⟨rfl, rfl, rfl, rfl, rfl, rfl, rfl, rfl⟩

/-- R204: the service opens a closed window only with line monitoring and its test passed. -/
theorem serviceWindow_opens {t : Time} {s : State} (hs : s.sendWindowOpen = false)
    (h : (serviceWindow t s).sendWindowOpen = true) : monitorsLine s = true ∧ windowMayOpen t s = true := by
  rw [serviceWindow_eq] at h
  split at h
  · rename_i hm
    exact ⟨hm, by simpa [hs] using h⟩
  · simp [hs] at h

/-- COMPLETE moves LEN at most, and otherwise does what a dispatch can do. -/
theorem completeFrame_change {s u : State} (h : completeFrame s = .next u) : ∃ l, EmuChange { s with len := l } u := by
  obtain rfl | ⟨f, -, -, rfl⟩ := completeFrame_cases h
  · exact ⟨u.len, .refl u⟩
  · exact ⟨0, dispatchFrame_change f _⟩

theorem resync_len (t : Time) (s : State) : (resync t s).len = if gapTooLong t s.lastRx then 0 else s.len := by
  unfold resync
  split <;> rfl

theorem resync_quiet (t : Time) (s : State) : Quiet { s with len := (resync t s).len } (resync t s) := by
  rw [← resync_frame]
  exact .refl _

/-- R22, R113: the slot APPEND writes when the buffer holds `l` bytes. -/
def appendSlot (l : Nat) : Nat := min l (Config.cap - 1)

theorem appendByte_buf_eq (b : Byte) (s : State) : (appendByte b s).buf = s.buf.write (appendSlot s.len) b := by
  have hslot : (if s.len < Config.cap then s.len else Config.cap - 1) = appendSlot s.len := by
    unfold appendSlot
    split <;> omega
  rw [appendByte_buf, hslot]

theorem appendByte_quiet (b : Byte) (s : State) :
    Quiet { s with buf := s.buf.write (appendSlot s.len) b, len := (appendByte b s).len } (appendByte b s) := by
  rw [← appendByte_buf_eq, ← appendByte_frame]
  exact .refl _

/-- RXBYTE of a running block (R111): the byte goes to the slot at hand after the gap test, the time is stamped, the window
closed; LEN moves, and what a dispatch can do may follow. -/
theorem execRxbyte_running {s u : State} {b : Byte} {t : Time} (hs : s.halted = false)
    (h : execRxbyte b t s = .next u) :
    ∃ l, Quiet { s with buf := s.buf.write (appendSlot (resync t s).len) b, len := l, lastRx := t
                        sendWindowOpen := false } u := by
  rw [execRxbyte, hs, if_neg Bool.false_ne_true] at h
  obtain ⟨l, hl⟩ := completeFrame_change h
  rw [appendByte_frame, appendByte_buf_eq, resync_frame] at hl
  exact ⟨l, hl.quiet⟩

theorem execRxbyte_halted {s : State} (b : Byte) (t : Time) (hs : s.halted = true) : execRxbyte b t s = .next s :=
  if_pos hs

/-! ### All instructions -/

/-- The ways an instruction can take `s` to `u`. -/
inductive ExecCase (s u : State) : Instr → Prop where
  | reset (t : Time) (hu : u = resetBlock t s) : ExecCase s u (.reset t)
  | rxbyte (b : Byte) (t : Time) (m : Memory) (l : Nat)
      (hu : Quiet { s with buf := m, len := l, lastRx := t, sendWindowOpen := false } u) : ExecCase s u (.rxbyte b t)
  | resync (t : Time) (l : Nat) (hu : Quiet { s with len := l } u) : ExecCase s u (.resync t)
  | append (b : Byte) (m : Memory) (l : Nat) (hu : Quiet { s with buf := m, len := l } u) : ExecCase s u (.append b)
  | complete (l : Nat) (hu : Quiet { s with len := l } u) : ExecCase s u .complete
  | window {i : Instr} (t : Time) (w : Bool) (hi : i = .tick t ∨ i = .winsvc t)
      (hw : s.sendWindowOpen = false → w = true → monitorsLine s = true ∧ windowMayOpen t s = true)
      (hu : Quiet { s with sendWindowOpen := w } u) : ExecCase s u i
  | quiet {i : Instr} (hu : Quiet s u) : ExecCase s u i

/-- The window service, after operations that keep what its test reads. -/
theorem ExecCase.of_service {s v : State} {i : Instr} {t : Time} (hi : i = .tick t ∨ i = .winsvc t) (hv : Quiet s v) :
    ExecCase s (serviceWindow t v) i := by
  have hmonitors : monitorsLine v = monitorsLine s := by rw [monitorsLine, monitorsLine, hv.straps]
  have hmay : windowMayOpen t v = windowMayOpen t s := by rw [windowMayOpen, windowMayOpen, hv.lastRx, hv.len]
  have hq := serviceWindow_quiet t v
  refine .window t (serviceWindow t v).sendWindowOpen hi (fun hs hw => ?_)
    ⟨hq.buf.trans hv.buf, hq.len.trans hv.len, hq.lastRx.trans hv.lastRx, rfl, hq.straps.trans hv.straps,
      hq.strapPins.trans hv.strapPins, hq.inbox.trans hv.inbox, hq.params.trans hv.params⟩
  rw [← hmonitors, ← hmay]
  exact serviceWindow_opens (hv.sendWindowOpen.trans hs) hw

/-- A handler run as an instruction is quiet. -/
theorem ExecCase.of_handler {s u : State} {i : Instr} (f : Frame) (h : Handler)
    (hu : Host.Outcome.next (φ := Fault) (ρ := Refusal) (runHandler f s h) = .next u) : ExecCase s u i := by
  cases hu
  exact .quiet (runHandler_change f s h).quiet

theorem exec_cases {i : Instr} {s u : State} (h : exec i s = .next u) : ExecCase s u i := by
  cases i with
  | reset t => cases h; exact .reset t rfl
  | rxbyte b t =>
    cases hs : s.halted with
    | true => cases (execRxbyte_halted b t hs).symm.trans h; exact .quiet (.refl s)
    | false => obtain ⟨l, hl⟩ := execRxbyte_running hs h; exact .rxbyte b t _ l hl
  | tick t =>
    simp only [exec, execTick] at h
    split at h <;> cases h
    · exact .quiet (.refl s)
    · exact .of_service (.inl rfl) (tickCount_quiet s)
  | winsvc t => cases h; exact .of_service (.inr rfl) (.refl s)
  | resync t => cases h; exact .resync t _ (resync_quiet t s)
  | append b => cases h; exact .append b _ _ (appendByte_quiet b s)
  | complete => obtain ⟨l, hl⟩ := completeFrame_change h; exact .complete l hl.quiet
  | noEvent => cases h; exact .quiet (.refl s)
  | infotmr => cases h; exact .quiet (infoTimer_change s).quiet
  | rxfault =>
    simp only [exec, execRxfault] at h
    split at h <;> cases h
    · exact .quiet (.refl s)
    · exact .quiet (raiseHalt_quiet _ s)
  | cdcPoll f => exact .of_handler f .cdcPoll h
  | cdcInforeq f => exact .of_handler f .cdcInforeq h
  | cdcEnter f => exact .of_handler f .cdcEnter h
  | cdcStop f => exact .of_handler f .cdcStop h
  | cdcPause f => exact .of_handler f .cdcPause h
  | cdcStart f => exact .of_handler f .cdcStart h
  | cdcDiskchg f => exact .of_handler f .cdcDiskchg h
  | cdcOutkey f => exact .of_handler f .cdcOutkey h
  | cdcTmrcancel f => exact .of_handler f .cdcTmrcancel h
  | hext x f => exact .of_handler f (.ext x) h
  | checksum f =>
    simp only [exec, execChecksum] at h
    split at h <;> cases h
    exact .quiet (handBack_quiet s _)
  | dispatch f =>
    simp only [exec, execDispatch] at h
    split at h <;> cases h
    exact .quiet (dispatchFrame_change f s).quiet
  | log f =>
    simp only [exec, execLog] at h
    split at h <;> cases h
    exact .quiet (EmuChange.of_emit s _ fun _ => rfl).quiet
  | cdcheur f => cases h; exact .quiet (cdcHeuristic_change f s).quiet
  | radiocnt f => cases h; exact .quiet (radioCount_change f s).quiet
  | lookup f => cases h; exact .quiet (handBack_quiet s _)
  | fire e f => cases h; exact .quiet (fireEntry_change e f s).quiet
  | unmatched f => cases h; exact .quiet (EmuChange.of_emit s _ fun _ => rfl).quiet
  | inforeply => cases h; exact .quiet (infoReply_change s).quiet
  | cdcentry => cases h; exact .quiet (cdcEntry_change s).quiet
  | announce => cases h; exact .quiet (announce_change s).quiet
  | tickcnt => cases h; exact .quiet (tickCount_quiet s)
  | ruleRotary rot ck => cases h; exact .quiet (dispatchFrame_change _ s).quiet

/-! ### The frame statements -/

/-- Settles O48: RESET alone samples the straps, and every case keeps the rest. -/
theorem configurationIsNeverWritten : Obligations.ConfigurationIsNeverWritten := by
  unfold Obligations.ConfigurationIsNeverWritten
  intro i s u h
  cases exec_cases h with
  | reset t hu =>
    subst hu
    exact ⟨rfl, rfl, rfl, fun hi => absurd rfl (hi t)⟩
  | rxbyte _ _ _ _ hu | resync _ _ hu | append _ _ _ hu | complete _ hu | window _ _ _ _ hu | quiet hu =>
    exact ⟨hu.params, hu.strapPins, hu.inbox, fun _ => hu.straps⟩

/-- Settles O50: outside RESET and the assembler only the window service and the quiet instructions are left. -/
theorem onlyTheAssemblerMovesLen : Obligations.OnlyTheAssemblerMovesLen := by
  unfold Obligations.OnlyTheAssemblerMovesLen
  intro i s u h hreset hrx hresync happend hcomplete
  cases exec_cases h with
  | reset t _ => exact absurd rfl (hreset t)
  | rxbyte b t _ _ _ => exact absurd rfl (hrx b t)
  | resync t _ _ => exact absurd rfl (hresync t)
  | append b _ _ _ => exact absurd rfl (happend b)
  | complete _ _ => exact absurd rfl hcomplete
  | window _ _ _ _ hu | quiet hu => exact hu.len

/-- Settles O51: every case but the window service leaves the window as it was or closes it. -/
theorem onlyTheTickOpensTheWindow : Obligations.OnlyTheTickOpensTheWindow := by
  unfold Obligations.OnlyTheTickOpensTheWindow
  intro i s u h hclosed hopen
  cases exec_cases h with
  | reset t hu =>
    subst hu
    cases hopen
  | rxbyte _ _ _ _ hu => cases hu.sendWindowOpen.symm.trans hopen
  | resync _ _ hu | append _ _ _ hu | complete _ hu | quiet hu =>
    cases (hu.sendWindowOpen.trans hclosed).symm.trans hopen
  | window t w hi hw hu =>
    obtain ⟨hmonitors, hmay⟩ := hw hclosed (hu.sendWindowOpen.symm.trans hopen)
    exact ⟨t, hi, (monitorsLine_iff s).1 hmonitors, (windowMayOpen_iff t s).1 hmay⟩

/-! ### The buffer -/

/-- What the slots read as after RXBYTE of a running block. -/
theorem execRxbyte_read {s u : State} {b : Byte} {t : Time} (hs : s.halted = false) (h : execRxbyte b t s = .next u)
    (a : Nat) : u.buf.read a = if a = appendSlot (resync t s).len then some b else s.buf.read a := by
  obtain ⟨l, hl⟩ := execRxbyte_running hs h
  rw [hl.buf, Memory.read_write]

/-- RESET, RXBYTE and APPEND apart, no instruction touches the buffer. -/
theorem exec_keeps_buf {i : Instr} {s u : State} (h : exec i s = .next u) (happend : ∀ b, i ≠ .append b)
    (hrx : ∀ b t, i ≠ .rxbyte b t) (hreset : ∀ t, i ≠ .reset t) : u.buf = s.buf := by
  cases exec_cases h with
  | reset t _ => exact absurd rfl (hreset t)
  | rxbyte b t _ _ _ => exact absurd rfl (hrx b t)
  | append b _ _ _ => exact absurd rfl (happend b)
  | resync _ _ hu | complete _ hu | window _ _ _ _ hu | quiet hu => exact hu.buf

/-- Settles O49: APPEND writes the slot at hand, RXBYTE the slot at hand after its gap test, and nothing else writes. -/
theorem onlyAppendWritesTheBuffer : Obligations.OnlyAppendWritesTheBuffer := by
  unfold Obligations.OnlyAppendWritesTheBuffer
  intro i s u h
  refine ⟨?append, ?rxbyte, exec_keeps_buf h⟩
  case append =>
    rintro b rfl
    cases h
    exact ⟨(appendByte_read b s _).trans (if_pos rfl), fun a ha => (appendByte_read b s a).trans (if_neg ha)⟩
  case rxbyte =>
    rintro b t rfl
    refine ⟨fun hs => ?halted, fun hs l hl => ?running⟩
    case halted => cases (execRxbyte_halted b t hs).symm.trans h; rfl
    case running =>
      have hlen : (resync t s).len = l := by
        simp only [resync_len, gapTooLong, decide_eq_true_eq]
        exact hl.symm
      have hread := execRxbyte_read hs h
      rw [hlen] at hread
      exact ⟨(hread _).trans (if_pos rfl), fun a ha => (hread a).trans (if_neg ha)⟩

end Sys2Proof.Machine
end

section
/-! PROOFS. The invariant of R43. It holds after RESET, and every event of the port keeps it. The one part that does not is
APPEND, which may complete a frame in the buffer; COMPLETE, which always follows it, takes that frame out again. -/

namespace Sys2Proof.Machine

/-! ### The events of the port -/

/-- What a word of the event port decodes to (R85). -/
theorem decodePort_ev_ok {c : BitVec 3} {d : Byte} {t : Time} {i : Instr} (h : decodePort (.ev c d t) = .ok i) :
    i = .noEvent ∨ i = .rxbyte d t ∨ i = .tick t ∨ i = .infotmr ∨ i = .rxfault := by
  simp only [decodePort] at h
  split at h <;> cases h <;> simp

/-- R222: while halted every event of the port does nothing. -/
theorem exec_of_halted {c : BitVec 3} {d : Byte} {t : Time} {i : Instr} {s : State}
    (hi : decodePort (.ev c d t) = .ok i) (hs : s.halted = true) : exec i s = .next s := by
  obtain rfl | rfl | rfl | rfl | rfl := decodePort_ev_ok hi
  · rfl
  · exact execRxbyte_halted d t hs
  · exact if_pos hs
  · exact congrArg Host.Outcome.next (if_pos hs)
  · exact if_pos hs

/-- Settles O6: the word is a reserved code, or an event that does nothing while halted. -/
theorem haltedStepOnlyTakesItsWord : Obligations.HaltedStepOnlyTakesItsWord := by
  unfold Obligations.HaltedStepOnlyTakesItsWord
  intro s w rest hs hw hrst
  cases w with
  | rst t => exact absurd rfl (hrst t)
  | ev c d t =>
    cases hi : decodePort (.ev c d t) with
    | error e => exact step_of_reserved hw hi
    | ok i => exact (step_of_decode hw hi).trans (exec_of_halted hi hs)

/-! ### Reset -/

/-- Settles O4: the values stand in `State.reset`, and an empty buffer has no written slot. -/
theorem resetStateHoldsResetValues : Obligations.ResetStateHoldsResetValues := by
  unfold Obligations.ResetStateHoldsResetValues
  exact ⟨rfl, rfl, rfl, rfl, rfl, rfl, rfl, rfl, rfl, rfl, rfl, rfl, Memory.read_nil⟩

theorem not_holdsWholeFrame_of_len_zero {s : State} (h : s.len = 0) : ¬ holdsWholeFrame s := by
  rintro ⟨hmin, -⟩
  rw [h] at hmin
  cases hmin

theorem resetBlock_inv (t : Time) (s : State) : Inv (resetBlock t s) where
  bufWf := rfl
  lenLe := Nat.zero_le _
  tickLt := Nat.zero_lt_succ _
  radioLe := Nat.zero_le _
  written _ ha := absurd ha (Nat.not_lt_zero _)
  noWhole := not_holdsWholeFrame_of_len_zero rfl
  timerUsed h := absurd h Bool.false_ne_true

/-- Settles O46: `State.reset` is what RESET at time 0 makes of itself. -/
theorem resetMeetsTheInvariant : Obligations.ResetMeetsTheInvariant := by
  unfold Obligations.ResetMeetsTheInvariant
  exact resetBlock_inv 0 State.reset

/-! ### Parts that keep the invariant -/

theorem Inv.took {s : State} (h : Inv s) (rest : List (List PortWord)) : Inv (s.took rest) :=
  ⟨h.bufWf, h.lenLe, h.tickLt, h.radioLe, h.written, h.noWhole, h.timerUsed⟩

theorem Inv.raiseHalt {s : State} (h : Inv s) (c : Cause) : Inv (raiseHalt c s) :=
  ⟨h.bufWf, h.lenLe, h.tickLt, h.radioLe, h.written, h.noWhole, h.timerUsed⟩

theorem Inv.stampByte {s : State} (h : Inv s) (t : Time) : Inv (stampByte t s) :=
  ⟨h.bufWf, h.lenLe, h.tickLt, h.radioLe, h.written, h.noWhole, h.timerUsed⟩

/-- Whatever a dispatch can do. -/
theorem Inv.emuChange {s u : State} (h : Inv s) (hc : EmuChange s u) : Inv u := by
  have htimer (hlive : u.infoLive = true) : infoTimerUsed s = true := (hc.used hlive).elim h.timerUsed id
  have hradio := hc.radio h.radioLe
  rw [hc.frame]
  exact ⟨h.bufWf, h.lenLe, h.tickLt, hradio, h.written, h.noWhole, htimer⟩

/-- With LEN 0 any canonical buffer will do. -/
theorem Inv.setBuf {s : State} (h : Inv s) {m : Memory} (hm : m.wf = true) : Inv { s with buf := m, len := 0 } where
  bufWf := hm
  lenLe := Nat.zero_le _
  tickLt := h.tickLt
  radioLe := h.radioLe
  written _ ha := absurd ha (Nat.not_lt_zero _)
  noWhole := not_holdsWholeFrame_of_len_zero rfl
  timerUsed := h.timerUsed

theorem Inv.resync {s : State} (h : Inv s) (t : Time) : Inv (resync t s) := by
  unfold Machine.resync
  split
  · exact h.setBuf h.bufWf
  · exact h

theorem Inv.setTick {s : State} (h : Inv s) {n : Nat} (hn : n < announceTicks) : Inv { s with tick600 := n } :=
  ⟨h.bufWf, h.lenLe, hn, h.radioLe, h.written, h.noWhole, h.timerUsed⟩

theorem Inv.tickCount {s : State} (h : Inv s) : Inv (tickCount s) := by
  have hzero : Inv { s with tick600 := 0 } := h.setTick (Nat.zero_lt_succ _)
  unfold Machine.tickCount
  split
  · split
    · exact hzero.emuChange (announce_change _)
    · exact hzero
  · have hlt := h.tickLt
    exact h.setTick (by omega)

theorem Inv.serviceWindow {s : State} (h : Inv s) (t : Time) : Inv (serviceWindow t s) := by
  rw [serviceWindow_eq]
  split
  · exact ⟨h.bufWf, h.lenLe, h.tickLt, h.radioLe, h.written, h.noWhole, h.timerUsed⟩
  · exact h

/-! ### APPEND and COMPLETE together -/

theorem appendByte_len (b : Byte) (s : State) : (appendByte b s).len = min (s.len + 1) (max s.len Config.cap) := by
  unfold appendByte
  split <;> simp only <;> omega

/-- I1 after APPEND. -/
theorem appendByte_len_le {s : State} (b : Byte) (h : s.len ≤ Config.cap) : (appendByte b s).len ≤ Config.cap := by
  rw [appendByte_len]
  omega

/-- I3 after APPEND: the slots held before, and the one just written, which is slot LEN whenever LEN moves. -/
theorem appendByte_written {s : State} (b : Byte) (h : Inv s) :
    ∀ a, a < (appendByte b s).len → ∃ v, (appendByte b s).buf.read a = some v := by
  intro a ha
  rw [appendByte_len] at ha
  rw [appendByte_buf_eq, Memory.read_write]
  by_cases hslot : a = appendSlot s.len
  · exact ⟨b, if_pos hslot⟩
  · rw [if_neg hslot]
    have hcap := h.lenLe
    unfold appendSlot at hslot
    exact h.written a (by omega)

/-- But for LEN, APPEND keeps the invariant. -/
theorem Inv.appendByte_clearLen {s : State} (h : Inv s) (b : Byte) : Inv { appendByte b s with len := 0 } := by
  have hslot : appendSlot s.len < Config.cap := Nat.lt_of_le_of_lt (Nat.min_le_right _ _) (by decide)
  rw [appendByte_frame, appendByte_buf_eq]
  exact h.setBuf (Memory.wf_write b hslot h.bufWf)

/-- COMPLETE restores I5: it dispatches a complete frame with LEN cleared, and what it leaves is none (R114). -/
theorem inv_of_completeFrame {s u : State} (hclear : Inv { s with len := 0 }) (hlen : s.len ≤ Config.cap)
    (hwritten : ∀ a, a < s.len → ∃ b, s.buf.read a = some b) (h : completeFrame s = .next u) : Inv u := by
  obtain ⟨hstay, hnone⟩ | ⟨f, -, -, hdispatch⟩ := completeFrame_of_written hwritten hlen
  · cases hstay.symm.trans h
    exact ⟨hclear.bufWf, hlen, hclear.tickLt, hclear.radioLe, hwritten, hnone, hclear.timerUsed⟩
  · cases hdispatch.symm.trans h
    exact hclear.emuChange (dispatchFrame_change f _)

theorem Inv.execRxbyte {s u : State} (h : Inv s) {b : Byte} {t : Time} (hu : execRxbyte b t s = .next u) : Inv u := by
  unfold Machine.execRxbyte at hu
  split at hu
  · cases hu
    exact h
  · have hstamped : Inv (Machine.stampByte t (Machine.resync t s)) := (h.resync t).stampByte t
    exact inv_of_completeFrame (hstamped.appendByte_clearLen b) (appendByte_len_le b hstamped.lenLe)
      (appendByte_written b hstamped) hu

/-! ### The step -/

/-- Every event of the port keeps the invariant. -/
theorem Inv.exec_event {w : PortWord} {i : Instr} {s u : State} (hi : decodePort w = .ok i) (h : Inv s)
    (hu : exec i s = .next u) : Inv u := by
  cases w with
  | rst t =>
    cases hi
    cases hu
    exact resetBlock_inv t s
  | ev c d t =>
    obtain rfl | rfl | rfl | rfl | rfl := decodePort_ev_ok hi
    · cases hu
      exact h
    · exact h.execRxbyte hu
    · simp only [exec, execTick] at hu
      split at hu <;> cases hu
      · exact h
      · exact h.tickCount.serviceWindow t
    · cases hu
      exact h.emuChange (infoTimer_change s)
    · simp only [exec, execRxfault] at hu
      split at hu <;> cases hu
      · exact h
      · exact h.raiseHalt _

/-- Settles O45: taking the word keeps the invariant, and then the event it decodes to does. -/
theorem stepKeepsTheInvariant : Obligations.StepKeepsTheInvariant := by
  unfold Obligations.StepKeepsTheInvariant
  intro s u h hu
  have htook := h.took (nextWord s.inbox).2
  unfold step at hu
  split at hu
  · rename_i i hi
    exact htook.exec_event hi hu
  · cases hu
    exact htook

end Sys2Proof.Machine
end

section
/-! PROOFS. The wire format (R66, R81, R82, R94): the fields of a built frame, and what a byte stream that starts with a
frame is cut into. -/

namespace Sys2Proof.Machine

/-- R130: a frame whose last byte is the checksum of the others has exclusive-or 0. -/
theorem xorFold_mkFrame (bytes : List Byte) : xorFold (mkFrame bytes) = 0 := by
  rw [mkFrame, xorFold, List.foldl_append]
  exact BitVec.xor_self

theorem length_wireFrame (src dst : Byte) (pay : List Byte) : (wireFrame src dst pay).length = pay.length + 4 := by
  simp [wireFrame, mkFrame]

theorem frameSrc_wireFrame (src dst : Byte) (pay : List Byte) : frameSrc (wireFrame src dst pay) = some src := rfl

theorem frameLenb_wireFrame (src dst : Byte) (pay : List Byte) :
    frameLenb (wireFrame src dst pay) = some (BitVec.ofNat 8 (pay.length + 2)) := rfl

theorem frameDst_wireFrame (src dst : Byte) (pay : List Byte) : frameDst (wireFrame src dst pay) = some dst := rfl

theorem framePay_wireFrame (src dst : Byte) (pay : List Byte) : framePay (wireFrame src dst pay) = pay :=
  List.dropLast_concat

/-- R82: the length byte of a built frame gives its length; it does not wrap up to a payload of 253 bytes. -/
theorem totalLength_wireFrame (src dst : Byte) {pay : List Byte} (hpay : pay.length < 254) :
    totalLength (BitVec.ofNat 8 (pay.length + 2)) = (wireFrame src dst pay).length := by
  rw [totalLength, BitVec.toNat_ofNat, length_wireFrame]
  omega

/-- R94: a frame whose length byte gives its length is cut whole off the front of a stream. -/
theorem parseWire_append {f : Frame} {lenb : Byte} (hlenb : frameLenb f = some lenb) (htotal : totalLength lenb = f.length)
    (hmin : Config.minFrame ≤ f.length) (hcap : f.length ≤ Config.cap) (rest : List Byte) :
    parseWire (f ++ rest) = .ok (f, rest) := by
  match f with
  | [] | [_] => cases hlenb
  | src :: _ :: body =>
    cases hlenb
    have hlength : ¬ (totalLength lenb < Config.minFrame ∨ Config.cap < totalLength lenb) := by omega
    have hwhole : ¬ (body ++ rest).length + 2 < totalLength lenb := by
      rw [htotal, List.length_append, List.length_cons, List.length_cons]
      omega
    have hcut : parseWire (src :: lenb :: (body ++ rest)) =
        .ok ((src :: lenb :: body ++ rest).take (totalLength lenb), (src :: lenb :: body ++ rest).drop (totalLength lenb)) :=
      (if_neg hlength).trans (if_neg hwhole)
    rw [htotal, List.take_left, List.drop_left] at hcut
    exact hcut

/-- Settles O59: the fields are read off the frame as it is built, and its length byte makes the parser cut it whole. -/
theorem wireFormatRoundTrip : Obligations.WireFormatRoundTrip := by
  unfold Obligations.WireFormatRoundTrip
  rintro src dst pay rest f hpay rfl
  have hlen := length_wireFrame src dst pay
  have hlenb := frameLenb_wireFrame src dst pay
  have htotal := totalLength_wireFrame src dst (Nat.lt_of_le_of_lt hpay (by decide))
  have hmin : Config.minFrame ≤ (wireFrame src dst pay).length := hlen ▸ Nat.le_add_left 4 _
  have hcap : (wireFrame src dst pay).length ≤ Config.cap := hlen ▸ Nat.add_le_add_right hpay 4
  exact ⟨frameSrc_wireFrame src dst pay, frameDst_wireFrame src dst pay, framePay_wireFrame src dst pay, hlen,
    ⟨_, hlenb, htotal⟩, xorFold_mkFrame _, parseWire_append hlenb htotal hmin hcap rest⟩

/-- Settles O7: `State.took` is the state with the rest as its input queue. -/
theorem stepRunsTheDecodedEvent : Obligations.StepRunsTheDecodedEvent := by
  unfold Obligations.StepRunsTheDecodedEvent
  intro s w rest i hw hi
  exact step_of_decode hw hi

end Sys2Proof.Machine
end

section
/-! PROOFS. The encodings (30_encoding.md): which ids are handlers' (R87), what decodes and what encodes (R84, R85, R89), and
what the table loaders take and refuse (R86, R90, R92). -/

namespace Sys2Proof

/-! ### Handler ids (R87) -/

/-- An external handler's id is its number with bit 7 set. -/
theorem toNat_encodeHid_ext (x : BitVec 7) : (encodeHid (.ext x)).toNat = 0x80 + x.toNat := by
  rw [encodeHid, BitVec.toNat_or, BitVec.toNat_setWidth_of_le (by decide)]
  exact (Nat.two_pow_add_eq_or_of_lt x.isLt 1).symm

/-- No handler has a reserved id. -/
theorem encodeHid_not_reserved (h : Handler) : ¬ (0x0A ≤ (encodeHid h).toNat ∧ (encodeHid h).toNat ≤ 0x7F) := by
  cases h with
  | ext x => rw [toNat_encodeHid_ext]; omega
  | _ => decide

/-- Every byte is a handler's id, which decodes to that handler, or a reserved id, which is rejected. -/
theorem decodeHid_cases (b : Byte) :
    (∃ h, decodeHid b = .ok h ∧ encodeHid h = b) ∨
      decodeHid b = .error (.reservedHandler b) ∧ 0x0A ≤ b.toNat ∧ b.toNat ≤ 0x7F := by
  cases hmsb : b.msb with
  | true =>
    have hge := BitVec.toNat_ge_of_msb_true hmsb
    have hid : encodeHid (.ext (b.setWidth 7)) = b := by
      apply BitVec.eq_of_toNat_eq
      rw [toNat_encodeHid_ext, BitVec.toNat_setWidth]
      omega
    exact .inl ⟨_, if_pos hmsb, hid⟩
  | false =>
    have hlt := BitVec.toNat_lt_of_msb_false hmsb
    rw [decodeHid, hmsb, if_neg Bool.false_ne_true]
    split
    case h_11 =>
      have hge : 0x0A ≤ b.toNat := by simp only [imp_false] at *; omega
      exact .inr ⟨rfl, hge, Nat.le_of_lt_succ hlt⟩
    all_goals exact .inl ⟨_, rfl, BitVec.eq_of_toNat_eq (by simp only [*]; rfl)⟩

theorem decodeHid_refused_iff (b : Byte) :
    (∃ err, decodeHid b = .error err) ↔ 0x0A ≤ b.toNat ∧ b.toNat ≤ 0x7F := by
  obtain ⟨h, hdec, rfl⟩ | ⟨hdec, hres⟩ := decodeHid_cases b
  · simp only [hdec, reduceCtorEq, exists_false, encodeHid_not_reserved]
  · exact iff_of_true ⟨_, hdec⟩ hres

/-- Settles O57: the case split over all bytes, the round trip of the handlers, and the ids as written. -/
theorem handlerIdsAreExact : Obligations.HandlerIdsAreExact := by
  unfold Obligations.HandlerIdsAreExact
  exact ⟨decodeHid_cases, decodeHid_encodeHid, rfl, toNat_encodeHid_ext⟩

/-! ### Decoding an encoding -/

/-- Every instruction meets the round trip: those of format INT have no encoding, the others have a lemma each. -/
theorem decode_encode : ∀ i : Instr, Laws.RoundTrip.Statement i
  | .reset t => Laws.RoundTrip.reset t
  | .noEvent => Laws.RoundTrip.noEvent
  | .rxbyte b t => Laws.RoundTrip.rxbyte b t
  | .tick t => Laws.RoundTrip.tick t
  | .infotmr => Laws.RoundTrip.infotmr
  | .rxfault => Laws.RoundTrip.rxfault
  | .cdcPoll f => Laws.RoundTrip.cdcPoll f
  | .cdcInforeq f => Laws.RoundTrip.cdcInforeq f
  | .cdcEnter f => Laws.RoundTrip.cdcEnter f
  | .cdcStop f => Laws.RoundTrip.cdcStop f
  | .cdcPause f => Laws.RoundTrip.cdcPause f
  | .cdcStart f => Laws.RoundTrip.cdcStart f
  | .cdcDiskchg f => Laws.RoundTrip.cdcDiskchg f
  | .cdcOutkey f => Laws.RoundTrip.cdcOutkey f
  | .cdcTmrcancel f => Laws.RoundTrip.cdcTmrcancel f
  | .hext x f => Laws.RoundTrip.hext x f
  | .ruleRotary rot ck => Laws.RoundTrip.ruleRotary rot ck
  | .resync _ | .append _ | .complete | .checksum _ | .dispatch _ | .log _ | .cdcheur _ | .radiocnt _ | .lookup _
  | .fire _ _ | .unmatched _ | .inforeply | .cdcentry | .announce | .tickcnt | .winsvc _ => Laws.RoundTrip.of_uncoded rfl

/-- What a port word decodes to is an event: well-formed, with a word of its own. -/
theorem decodePort_encodable {w : PortWord} {i : Instr} (h : decodePort w = .ok i) :
    i.wf = true ∧ ∃ c, encode i = some c := by
  cases w with
  | rst t => cases h; exact ⟨rfl, _, rfl⟩
  | ev c d t => obtain rfl | rfl | rfl | rfl | rfl := Machine.decodePort_ev_ok h <;> exact ⟨rfl, _, rfl⟩

/-- A handler's operation is as well-formed as its frame, and its code is the handler's id with that frame. -/
theorem encode_toInstr {h : Handler} {f : Frame} {i : Instr} (hi : h.toInstr f = .ok i) :
    i.wf = frameOk f ∧ encode i = some (.handler (encodeHid h) f) := by
  cases h <;> cases hi <;> exact ⟨rfl, rfl⟩

/-- The only frame that decodes is the rotary frame (R89). -/
theorem decodeFrame_ok {f : Frame} {i : Instr} (h : decodeFrame f = .ok i) : ∃ rot ck, i = .ruleRotary rot ck := by
  unfold decodeFrame at h
  split at h
  · split at h <;> cases h
    exact ⟨_, _, rfl⟩
  · cases h

/-- Whatever a code decodes to is well-formed and has an encoding. -/
theorem decode_encodable {c : Code} {i : Instr} (h : decode c = .ok i) : i.wf = true ∧ ∃ c', encode i = some c' := by
  cases c with
  | port w => exact decodePort_encodable h
  | handler hid f =>
    simp only [decode] at h
    split at h
    · rename_i hf
      split at h
      · obtain ⟨hwf, hcode⟩ := encode_toInstr h
        exact ⟨hwf.trans hf, _, hcode⟩
      · cases h
    · cases h
  | frame f =>
    obtain ⟨rot, ck, rfl⟩ := decodeFrame_ok h
    exact ⟨rfl, _, rfl⟩

/-- Settles O56: each instruction's round trip; and what a code decodes to is well-formed and has an encoding, so its own
round trip applies. -/
theorem decodeOfEncodeIsIdentity : Obligations.DecodeOfEncodeIsIdentity := by
  unfold Obligations.DecodeOfEncodeIsIdentity
  refine ⟨fun i c => decode_encode i c, fun c i h => ?_⟩
  obtain ⟨hwf, c', hc'⟩ := decode_encodable h
  exact ⟨hwf, c', hc', decode_encode i c' hwf hc'⟩

/-- Settles O60: the decoder evaluated on each code. -/
theorem tableWordsDecode : Obligations.TableWordsDecode := by
  unfold Obligations.TableWordsDecode
  exact ⟨rfl, rfl, rfl, rfl⟩

/-! ### Event codes (R85, R92) -/

theorem decodePort_reserved {c : BitVec 3} (hc : 5 ≤ c.toNat) (d : Byte) (t : Time) :
    decodePort (.ev c d t) = .error (.reservedEvent c) := by
  simp only [decodePort]
  split
  case h_6 => rfl
  all_goals omega

/-- Settles O1: the codes 0 to 4 by evaluation, the reserved ones by `decodePort_reserved`. -/
theorem eventCodesAndNoEvent : Obligations.EventCodesAndNoEvent := by
  unfold Obligations.EventCodesAndNoEvent
  exact ⟨fun d t => ⟨rfl, rfl, rfl, rfl, rfl, fun _ hc => decodePort_reserved hc d t⟩, fun _ => rfl⟩

/-- Settles O2: a reserved code is rejected, and a step drops the word it cannot decode. -/
theorem reservedEventIsIgnored : Obligations.ReservedEventIsIgnored := by
  unfold Obligations.ReservedEventIsIgnored
  intro s c d t rest hw hc
  exact Machine.step_of_reserved hw (decodePort_reserved hc d t)

/-! ### Rule tables (R86, R92) -/

/-- A raw entry loads as `e` exactly when `PLEN` is in range, its id decodes to the handler of `e`, and pattern, key and
command are those of `e`. -/
theorem loadRule_eq_ok_iff (r : RawRule) (e : RuleEntry) :
    loadRule r = .ok e ↔ r.plen.toNat ≤ Config.pmax ∧ decodeHid r.hid = .ok e.handler ∧
      e.pfx = r.pfx.toList.take r.plen.toNat ∧ e.key = (if r.keyV then some r.key else none) ∧
      e.cmd = (if r.cmdV then some r.cmd else none) := by
  obtain ⟨pfx, key, cmd, handler, pfx_le⟩ := e
  unfold loadRule
  by_cases hplen : r.plen.toNat ≤ Config.pmax
  · cases decodeHid r.hid with
    | error err => simp [hplen]
    | ok hd => simp [hplen]; tauto
  · simp [hplen]

theorem loadRule_refused_iff (r : RawRule) :
    (∃ err, loadRule r = .error err) ↔ 16 < r.plen.toNat ∨ (0x0A ≤ r.hid.toNat ∧ r.hid.toNat ≤ 0x7F) := by
  rw [← decodeHid_refused_iff]
  unfold loadRule
  by_cases hplen : r.plen.toNat ≤ Config.pmax
  · have hshort : ¬ 16 < r.plen.toNat := Nat.not_lt.2 hplen
    rw [dif_pos hplen]
    cases decodeHid r.hid <;> simp [hshort]
  · rw [dif_neg hplen]
    exact iff_of_true ⟨_, rfl⟩ (.inl (Nat.lt_of_not_le hplen))

/-- The used bytes of a stored pattern are the pattern: the zeros after it are not read. -/
theorem take_storeRule_pfx (e : RuleEntry) : (storeRule e).pfx.toList.take e.pfx.length = e.pfx := by
  have hle : e.pfx.length ≤ 16 := e.pfx_le
  apply List.ext_getElem
  · simp [storeRule]
    omega
  · intro k hk hk'
    simp [storeRule, hk']

theorem toNat_storeRule_plen (e : RuleEntry) : (storeRule e).plen.toNat = e.pfx.length :=
  Nat.mod_eq_of_lt (Nat.lt_of_le_of_lt e.pfx_le (by decide))

/-- A field stored as a valid bit and a value reads back. -/
theorem ite_isSome_getD {α : Type} (o : Option α) (d : α) : (if o.isSome then some (o.getD d) else none) = o := by
  cases o <;> rfl

theorem loadRule_storeRule (e : RuleEntry) : loadRule (storeRule e) = .ok e := by
  rw [loadRule_eq_ok_iff, toNat_storeRule_plen, take_storeRule_pfx]
  exact ⟨e.pfx_le, decodeHid_encodeHid e.handler, rfl, (ite_isSome_getD e.key 0).symm, (ite_isSome_getD e.cmd 0).symm⟩

theorem length_pfx_of_loadRule {r : RawRule} {e : RuleEntry} (h : loadRule r = .ok e) : e.pfx.length = r.plen.toNat := by
  obtain ⟨hplen, -, hpfx, -, -⟩ := (loadRule_eq_ok_iff r e).1 h
  rw [hpfx, List.length_take, Vector.length_toList]
  exact Nat.min_eq_left hplen

theorem loadRules_refused_iff (rs : List RawRule) :
    (∃ err, loadRules rs = .error err) ↔ ∃ r ∈ rs, ∃ err, loadRule r = .error err := by
  induction rs with
  | nil => simp [loadRules]
  | cons r rs ih =>
    rw [List.exists_mem_cons_iff, ← ih]
    cases hr : loadRule r with
    | error err => simp [loadRules_cons_error hr]
    | ok e =>
      rw [loadRules_cons_ok hr]
      cases loadRules rs <;> simp [Except.map]

/-- A rule table that loads, loads entry by entry. -/
theorem forall₂_of_loadRules {rs : List RawRule} {es : List RuleEntry} (h : loadRules rs = .ok es) :
    List.Forall₂ (fun r e => loadRule r = .ok e) rs es := by
  induction rs generalizing es with
  | nil => cases h; exact .nil
  | cons r rs ih =>
    cases hr : loadRule r with
    | error err => cases (loadRules_cons_error hr).symm.trans h
    | ok e =>
      rw [loadRules_cons_ok hr] at h
      cases hrs : loadRules rs with
      | error err => rw [hrs] at h; cases h
      | ok es' => rw [hrs] at h; cases h; exact .cons hr (ih hrs)

theorem loadRules_getElem? {rs : List RawRule} {es : List RuleEntry} (h : loadRules rs = .ok es) {k : Nat} {r : RawRule}
    (hr : rs[k]? = some r) : ∃ e, es[k]? = some e ∧ loadRule r = .ok e := by
  have hall := forall₂_of_loadRules h
  obtain ⟨hk, rfl⟩ := List.getElem?_eq_some_iff.1 hr
  have hk' : k < es.length := hall.length_eq ▸ hk
  exact ⟨es[k], List.getElem?_eq_getElem hk', hall.get hk hk'⟩

/-! ### Shape tables (R90, R92) -/

theorem loadShape_eq_ok_iff (r : RawShape) (sh : Shape) :
    loadShape r = .ok sh ↔ sh.slen = r.slen ∧ sh.conds = r.conds := by
  obtain ⟨slen, conds, hok⟩ := sh
  constructor
  · intro h
    by_cases hr : shapeOk r.slen r.conds = true
    · rw [loadShape_of_ok hr] at h
      cases h
      exact ⟨rfl, rfl⟩
    · simp only [loadShape, dif_neg hr] at h
      split at h
      · cases h
      · split at h <;> cases h
  · rintro ⟨rfl, rfl⟩
    exact loadShape_of_ok hok

theorem loadShape_refused_iff (r : RawShape) :
    (∃ err, loadShape r = .error err) ↔
      r.slen < 4 ∨ 64 < r.slen ∨ 8 < r.conds.length ∨ ∃ c ∈ r.conds, r.slen ≤ c.off := by
  have hbounds : (r.slen < 4 ∨ 64 < r.slen ∨ 8 < r.conds.length ∨ ∃ c ∈ r.conds, r.slen ≤ c.off) ↔
      ¬ shapeOk r.slen r.conds = true := by
    simp only [shapeOk_iff, not_and_or, not_le, not_forall, not_lt, exists_prop]
  rw [hbounds]
  cases h : loadShape r with
  | error err =>
    refine iff_of_true ⟨err, rfl⟩ fun hok => ?_
    cases (loadShape_of_ok hok).symm.trans h
  | ok sh =>
    obtain ⟨hslen, hconds⟩ := (loadShape_eq_ok_iff r sh).1 h
    exact iff_of_false (by simp) (not_not.2 (hslen ▸ hconds ▸ sh.ok))

theorem loadShapes_eq_ok_iff (l : List RawShape) (t : ShapeTable) :
    loadShapes l = .ok t ↔
      ∃ a b c, l = [a, b, c] ∧ loadShape a = .ok t.s0 ∧ loadShape b = .ok t.s1 ∧ loadShape c = .ok t.s2 := by
  constructor
  · intro h
    unfold loadShapes at h
    split at h
    · rename_i a b c
      split at h
      · cases h
      · split at h
        · cases h
        · split at h <;> cases h
          exact ⟨a, b, c, rfl, by assumption, by assumption, by assumption⟩
    · cases h
  · rintro ⟨a, b, c, rfl, ha, hb, hc⟩
    simp only [loadShapes, ha, hb, hc]

/-- Settles O58: the loaders' equations, entry by entry and shape by shape. -/
theorem tableEntriesLoadOrAreRefused : Obligations.TableEntriesLoadOrAreRefused := by
  unfold Obligations.TableEntriesLoadOrAreRefused
  refine ⟨loadRule_storeRule, loadRule_refused_iff, fun r e h => ?entry, loadRules_refused_iff, fun rs es h => ?table,
    loadShape_refused_iff, fun r sh => (loadShape_eq_ok_iff r sh).1, loadShapes_eq_ok_iff⟩
  case entry =>
    obtain ⟨-, hhid, hpfx, hkey, hcmd⟩ := (loadRule_eq_ok_iff r e).1 h
    exact ⟨hpfx, length_pfx_of_loadRule h, hkey, hcmd, hhid⟩
  case table => exact ⟨(forall₂_of_loadRules h).length_eq.symm, fun k r => loadRules_getElem? h⟩

end Sys2Proof
end

section
/-! PROOFS. Two cases of the running block that 30_encoding.md singles out: the length bytes with which no frame completes
(R93), and the rotary frame (R89). -/

namespace Sys2Proof.Machine

/-! ### Impossible length bytes (R93) -/

/-- R112: a gap within the threshold drops nothing. -/
theorem resync_of_short_gap {t : Time} {s : State} (h : (t - s.lastRx).toNat ≤ 64) : resync t s = s :=
  if_neg fun hgap => Nat.not_lt.2 h (of_decide_eq_true hgap)

/-- R114: COMPLETE does nothing while the length byte held in slot 1 is not that of a whole frame of LEN bytes. -/
theorem completeFrame_of_other_length {s : State} {lenb : Byte} (hread : s.buf.read 1 = some lenb)
    (hlen : Config.minFrame ≤ s.len → totalLength lenb ≠ s.len) : completeFrame s = .next s := by
  have hslot : readSlot s.buf 1 = .ok lenb := by simp [readSlot, hread, Config.cap]
  unfold completeFrame
  by_cases hshort : s.len < Config.minFrame
  · exact if_pos hshort
  · rw [if_neg hshort]
    simp only [hslot]
    exact if_neg (hlen (Nat.le_of_not_lt hshort))

/-- Once two bytes are held, APPEND leaves the length byte alone. -/
theorem appendByte_keeps_slot_one (b : Byte) {s : State} (h : 2 ≤ s.len) : (appendByte b s).buf.read 1 = s.buf.read 1 := by
  have hslot : 1 ≠ appendSlot s.len := by
    have hcap : Config.cap = 64 := rfl
    unfold appendSlot
    omega
  rw [appendByte_buf_eq, Memory.read_write_other _ _ hslot]

theorem appendByte_actions (b : Byte) (s : State) : (appendByte b s).actions = s.actions := by
  rw [appendByte_frame]

/-- Settles O16: the byte is appended with slot 1 kept, and LEN, from 3 to 64, is no total length that slot 1 can ask for
when a frame may complete. -/
theorem impossibleLengthNeverCompletes : Obligations.ImpossibleLengthNeverCompletes := by
  unfold Obligations.ImpossibleLengthNeverCompletes
  intro s b lenb t hrun hmin hcap hread himpossible hgap
  have hread' : (appendByte b (stampByte t s)).buf.read 1 = some lenb := 
    (appendByte_keeps_slot_one (s := stampByte t s) b hmin).trans hread
  have hlen : (appendByte b (stampByte t s)).len = min (s.len + 1) 64 := by
    have hmax : max s.len Config.cap = 64 := Nat.max_eq_right hcap
    rw [appendByte_len, stampByte_len, hmax]
  refine ⟨appendByte b (stampByte t s), ?_, appendByte_actions b _, hlen, hread'⟩
  have hwait := completeFrame_of_other_length hread' fun hfour => by
    have hfour' : 4 ≤ min (s.len + 1) 64 := hlen ▸ hfour
    rw [hlen, totalLength]
    omega
  rw [exec, execRxbyte, hrun, if_neg Bool.false_ne_true, resync_of_short_gap hgap, hwait]

/-! ### The rotary frame (R89) -/

theorem cdcHeuristic_of_no_shape {f : Frame} {s : State} (h : anyShapeMatches s.params.shapes f = false) :
    cdcHeuristic f s = s := by
  rw [cdcHeuristic, h, if_neg Bool.false_ne_true]

theorem radioCount_of_other_source {f : Frame} {s : State} (h : frameSrc f ≠ some s.params.radioAddr) :
    radioCount f s = s :=
  if_neg fun hsrc => h (beq_iff_eq.1 hsrc)

/-- An entry with neither key nor command only calls its handler. -/
theorem fireEntry_handler_only {e : RuleEntry} (f : Frame) (s : State) (hkey : e.key = none) (hcmd : e.cmd = none) :
    fireEntry e f s = runHandler f s e.handler := by
  rw [fireEntry, hkey, hcmd]
  rfl

theorem lookupAndFire_of_head {e : RuleEntry} {es : List RuleEntry} {f : Frame} {s : State}
    (hrules : s.params.rules = e :: es) (hm : entryMatches e f = true) : lookupAndFire f s = fireEntry e f s :=
  lookupAndFire_of_first (i := 0) (by rw [hrules]; rfl) hm fun _ hj => absurd hj (Nat.not_lt_zero _)

/-- The id of R148 as a number. -/
theorem extHid_eq (x : BitVec 7) : extHid x = BitVec.ofNat 8 (128 + x.toNat) := by
  rw [extHid, ← toNat_encodeHid_ext, BitVec.ofNat_toNat, BitVec.setWidth_eq]

/-- A frame of no shape and not from the radio, whose first entry calls an external handler and nothing else: it is logged
and passed out (R140, R148). -/
theorem dispatchFrame_external {f : Frame} {s : State} {e : RuleEntry} {es : List RuleEntry} {x : BitVec 7}
    (hshape : anyShapeMatches s.params.shapes f = false) (hsrc : frameSrc f ≠ some s.params.radioAddr)
    (hrules : s.params.rules = e :: es) (hm : entryMatches e f = true) (hkey : e.key = none) (hcmd : e.cmd = none)
    (hext : e.handler = .ext x) :
    dispatchFrame f s = { s with actions := s.actions ++ [.log f (!checksumValid f), .hext (extHid x) f] } := by
  calc dispatchFrame f s
      = lookupAndFire f (logFrame f s) := by
        rw [dispatchFrame, cdcHeuristic_of_no_shape (s := logFrame f s) hshape,
          radioCount_of_other_source (s := logFrame f s) hsrc]
    _ = fireEntry e f (logFrame f s) := lookupAndFire_of_head (s := logFrame f s) hrules hm
    _ = callExternal x f (logFrame f s) := by rw [fireEntry_handler_only f _ hkey hcmd, hext, runHandler]
    _ = _ := by simp [callExternal, logFrame, State.emit]

/-- Settles O31: RULE_ROTARY is the dispatch of the frame, and the entry's pattern is the frame's first four bytes. -/
theorem rotaryFrameIsPassedOut : Obligations.RotaryFrameIsPassedOut := by
  unfold Obligations.RotaryFrameIsPassedOut
  rintro s rot ck f rfl
  refine ⟨⟨_, rfl, rfl⟩, fun e es x hrules hpfx hkey hcmd hext hshape hradio =>
    ⟨!checksumValid [0xF0, 0x04, 0x3B, 0x49, rot, ck], ?_⟩⟩
  have hm : entryMatches e [0xF0, 0x04, 0x3B, 0x49, rot, ck] = true := by
    rw [entryMatches_iff_take, hpfx]
    exact ⟨by simp, rfl⟩
  have hsrc : frameSrc [0xF0, 0x04, 0x3B, 0x49, rot, ck] ≠ some s.params.radioAddr := by
    simpa [frameSrc] using hradio.symm
  rw [← extHid_eq]
  exact congrArg Host.Outcome.next (dispatchFrame_external hshape hsrc hrules hm hkey hcmd hext)

end Sys2Proof.Machine
end

section
/-! PROOFS. The FrameAssembler (40_frame_assembler.md): RXBYTE and its sub-operations, and a whole frame fed byte by byte. -/

namespace Sys2Proof.Machine

/-! ### RESYNC (R112) -/

theorem resync_eq (t : Time) (s : State) :
    resync t s = if 64 < (t - s.lastRx).toNat then { s with len := 0 } else s :=
  if_congr decide_eq_true_iff rfl rfl

/-- With nothing accumulated there is nothing to drop, however long the gap. -/
theorem resync_of_empty (t : Time) {s : State} (h : s.len = 0) : resync t s = s := by
  have hlen : (resync t s).len = s.len := by rw [resync_len, h, ite_self]
  rw [resync_frame, hlen]

/-- A byte joins what is accumulated when there is nothing to drop or no reason to. -/
theorem resync_eq_self {t : Time} {s : State} (h : s.len = 0 ∨ (t - s.lastRx).toNat ≤ 64) : resync t s = s :=
  h.elim (resync_of_empty t) resync_of_short_gap

/-- Settles O10: RESYNC's own equation. -/
theorem resyncDropsAfterLongGap : Obligations.ResyncDropsAfterLongGap := by
  unfold Obligations.ResyncDropsAfterLongGap
  intro s t
  exact congrArg Host.Outcome.next (resync_eq t s)

/-! ### APPEND (R113) -/

theorem appendByte_eq (b : Byte) {s : State} (h : s.len ≤ Config.cap) :
    appendByte b s = { s with buf := s.buf.write (appendSlot s.len) b, len := min (s.len + 1) Config.cap } := by
  rw [appendByte_frame, appendByte_buf_eq, appendByte_len, Nat.max_eq_right h]

/-- Settles O11: the slot at hand is written, so it reads as the byte and the other slots as before. -/
theorem appendStoresOneByteBounded : Obligations.AppendStoresOneByteBounded := by
  unfold Obligations.AppendStoresOneByteBounded
  intro s b h
  have hslot : (if s.len < 64 then s.len else 63) = appendSlot s.len := by
    simp only [appendSlot, Config.cap]
    split <;> omega
  have hlen : (if s.len < 64 then s.len + 1 else 64) = min (s.len + 1) Config.cap := by
    simp only [Config.cap]
    split <;> omega
  rw [hslot, hlen]
  exact ⟨_, congrArg Host.Outcome.next (appendByte_eq b h), Memory.read_write_same _ _ b,
    fun _ => Memory.read_write_other _ b⟩

/-! ### COMPLETE (R114) -/

/-- The first slots hold the bytes `f`. -/
def Memory.Holds (m : Memory) (f : Frame) : Prop := ∀ a, a < f.length → m.read a = f[a]?

/-- The byte of the next slot extends what is held. -/
theorem Memory.Holds.append {m : Memory} {f : Frame} (h : m.Holds f) (b : Byte) :
    (m.write f.length b).Holds (f ++ [b]) := by
  intro a ha
  rw [Memory.read_write]
  split
  case isTrue heq => rw [heq, List.getElem?_concat_length]
  case isFalse hne =>
    rw [List.length_append, List.length_singleton] at ha
    have hlt : a < f.length := by omega
    rw [h a hlt, List.getElem?_append_left hlt]

/-- R114: at least 4 bytes, and the length byte plus 2 is the length. -/
def IsWhole (f : Frame) : Prop :=
  Config.minFrame ≤ f.length ∧ ∃ lenb, frameLenb f = some lenb ∧ totalLength lenb = f.length

/-- The length byte of a frame is the length byte of what is to come, so a frame completes with its last byte only. -/
theorem IsWhole.not_isWhole_front {f g : Frame} (h : IsWhole (f ++ g)) (hg : g ≠ []) : ¬ IsWhole f := by
  rintro ⟨hmin, lenb, hlenb, htotal⟩
  obtain ⟨-, lenb', hlenb', htotal'⟩ := h
  have hone : 1 < f.length := Nat.lt_of_lt_of_le (by decide) hmin
  have hsame : lenb = lenb' := by
    rw [frameLenb, List.getElem?_append_left hone] at hlenb'
    exact Option.some.inj (hlenb.symm.trans hlenb')
  have hpos := List.length_pos_iff.2 hg
  rw [← hsame, htotal, List.length_append] at htotal'
  omega

theorem completeFrame_of_short {s : State} (h : s.len < Config.minFrame) : completeFrame s = .next s := if_pos h

theorem completeFrame_of_not_isWhole {s : State} {f : Frame} (hlen : f.length = s.len) (hheld : s.buf.Holds f)
    (hpart : ¬ IsWhole f) : completeFrame s = .next s := by
  rcases Nat.lt_or_ge s.len Config.minFrame with hshort | hmin
  · exact completeFrame_of_short hshort
  · have hone : 1 < f.length := hlen ▸ Nat.lt_of_lt_of_le (by decide) hmin
    have hlenb : f[1]? = some f[1] := List.getElem?_eq_getElem hone
    refine completeFrame_of_other_length ((hheld 1 hone).trans hlenb) fun hmin htotal => hpart ?_
    rw [← hlen] at hmin htotal
    exact ⟨hmin, f[1], hlenb, htotal⟩

theorem completeFrame_of_isWhole {s : State} {f : Frame} (hcap : s.len ≤ Config.cap) (hlen : f.length = s.len)
    (hheld : s.buf.Holds f) (hwhole : IsWhole f) : completeFrame s = .next (dispatchFrame f { s with len := 0 }) := by
  obtain ⟨hmin, lenb, hlenb, htotal⟩ := hwhole
  have hone : 1 < f.length := Nat.lt_of_lt_of_le (by decide) hmin
  have hslot : readSlot s.buf 1 = .ok lenb := by simp [readSlot, (hheld 1 hone).trans hlenb, Config.cap]
  have hslots : readSlots s.buf 0 s.len = .ok f := by
    rw [← hlen] at hcap ⊢
    exact readSlots_eq_ok (by omega) fun a ha => by rw [Nat.zero_add, hheld a ha]
  rw [hlen] at hmin htotal
  simp only [completeFrame, if_neg (Nat.not_lt.2 hmin), hslot, if_pos htotal, hslots]

/-- A whole frame is not empty, so DISPATCH takes it. -/
theorem exec_dispatch_of_isWhole {f : Frame} (h : IsWhole f) (s : State) :
    exec (.dispatch f) s = .next (dispatchFrame f s) := by
  obtain ⟨hmin, -⟩ := h
  exact if_pos ((nonEmpty_iff f).2 (List.length_pos_iff.1 (Nat.lt_of_lt_of_le (by decide) hmin)))

/-- Settles O12: the bytes held are a whole frame or they are not. -/
theorem completeEmitsExactlyTheAccumulatedBytes : Obligations.CompleteEmitsExactlyTheAccumulatedBytes := by
  unfold Obligations.CompleteEmitsExactlyTheAccumulatedBytes
  intro s f hcap hlen hread
  have hheld : s.buf.Holds f := fun a ha => hread a (hlen ▸ ha)
  exact ⟨fun hwhole => ⟨_, exec_dispatch_of_isWhole hwhole _, completeFrame_of_isWhole hcap hlen hheld hwhole⟩,
    fun hpart => completeFrame_of_not_isWhole hlen hheld hpart⟩

/-! ### RXBYTE (R111) -/

theorem execRxbyte_of_running {s : State} (b : Byte) (t : Time) (hrun : s.halted = false) :
    execRxbyte b t s = completeFrame (appendByte b (stampByte t (resync t s))) := by
  rw [execRxbyte, hrun, if_neg Bool.false_ne_true]

/-- Settles O9: RXBYTE of a running block, step by step. -/
theorem rxbyteRunsItsStepsInOrder : Obligations.RxbyteRunsItsStepsInOrder := by
  unfold Obligations.RxbyteRunsItsStepsInOrder
  intro s b t
  exact ⟨rfl, execRxbyte_halted b t, fun hrun => ⟨_, _, rfl, rfl, execRxbyte_of_running b t hrun⟩⟩

/-- R111: what COMPLETE finds, as one record update; RESYNC shows in LEN only. -/
theorem execRxbyte_eq {s : State} (b : Byte) (t : Time) (hrun : s.halted = false) (hcap : s.len ≤ Config.cap) :
    execRxbyte b t s = completeFrame
      { s with buf := s.buf.write (appendSlot (resync t s).len) b, len := min ((resync t s).len + 1) Config.cap
               lastRx := t, sendWindowOpen := false } := by
  have hcap' : (stampByte t (resync t s)).len ≤ Config.cap := Nat.le_trans (resync_len_le t s) hcap
  rw [execRxbyte_of_running b t hrun, appendByte_eq b hcap', resync_frame]
  rfl

/-- Settles O13: with fewer than 4 bytes COMPLETE waits, and otherwise slot 1 keeps the byte that asks for another length. -/
theorem rxbyteStoresAndWaits : Obligations.RxbyteStoresAndWaits := by
  unfold Obligations.RxbyteStoresAndWaits
  intro s b t l hrun hcap hl hwait
  have hlen : (resync t s).len = l := by
    rw [resync_eq, apply_ite State.len]
    exact hl.symm
  refine ⟨s.buf.write (min l 63) b, ?_, Memory.read_write_same _ _ b, fun _ => Memory.read_write_other _ b⟩
  rw [exec, execRxbyte_eq b t hrun hcap, hlen]
  rcases hwait with hshort | ⟨hmin, lenb, hread, hother⟩
  · exact completeFrame_of_short (Nat.lt_of_le_of_lt (Nat.min_le_left _ _) (Nat.succ_lt_succ hshort))
  · have hkept : (s.buf.write (min l 63) b).read 1 = some lenb :=
      (Memory.read_write_other _ b (by omega)).trans hread
    exact completeFrame_of_other_length hkept fun _ => hother

/-- All that RXBYTE of a running block can do: what a dispatch can do, once the byte is stored, the time stamped and the
window closed. -/
theorem execRxbyte_change {s u : State} {b : Byte} {t : Time} (hrun : s.halted = false)
    (h : execRxbyte b t s = .next u) :
    ∃ m l, EmuChange { s with buf := m, len := l, lastRx := t, sendWindowOpen := false } u := by
  rw [execRxbyte_of_running b t hrun, appendByte_frame, resync_frame] at h
  obtain ⟨l, hl⟩ := completeFrame_change h
  exact ⟨_, l, hl⟩

/-- Settles O15: no dispatch writes the five elements. -/
theorem rxbyteAlwaysStampsAndClosesTheWindow : Obligations.RxbyteAlwaysStampsAndClosesTheWindow := by
  unfold Obligations.RxbyteAlwaysStampsAndClosesTheWindow
  intro s u b t hrun h
  obtain ⟨m, l, hchange⟩ := execRxbyte_change hrun h
  rw [hchange.frame]
  exact ⟨rfl, rfl, rfl, hrun, rfl⟩

/-! ### A frame, byte by byte -/

section

variable {s : State} {f : Frame} {b : Byte} {t : Time} (hrun : s.halted = false)
  (hgap : s.len = 0 ∨ (t - s.lastRx).toNat ≤ 64) (hroom : f.length < Config.cap) (hlen : s.len = f.length)

include hrun hgap hroom hlen

/-- A byte that joins the bytes `f`, with a slot left for it, stands behind them when COMPLETE runs. -/
theorem exec_rxbyte_joins : exec (.rxbyte b t) s = completeFrame
    { s with buf := s.buf.write f.length b, len := f.length + 1, lastRx := t, sendWindowOpen := false } := by
  have hslot : appendSlot f.length = f.length := Nat.min_eq_left (Nat.le_sub_one_of_lt hroom)
  have hnext : min (f.length + 1) Config.cap = f.length + 1 := Nat.min_eq_left hroom
  rw [exec, execRxbyte_eq b t hrun (hlen ▸ Nat.le_of_lt hroom), resync_eq_self hgap, hlen, hslot, hnext]

variable (hheld : s.buf.Holds f)

include hheld

theorem exec_rxbyte_waits (hpart : ¬ IsWhole (f ++ [b])) : exec (.rxbyte b t) s =
    .next { s with buf := s.buf.write f.length b, len := f.length + 1, lastRx := t, sendWindowOpen := false } := by
  rw [exec_rxbyte_joins hrun hgap hroom hlen]
  exact completeFrame_of_not_isWhole List.length_append (hheld.append b) hpart

theorem exec_rxbyte_completes (hwhole : IsWhole (f ++ [b])) :
    exec (.rxbyte b t) s = .next (dispatchFrame (f ++ [b])
      { s with buf := s.buf.write f.length b, len := 0, lastRx := t, sendWindowOpen := false }) := by
  rw [exec_rxbyte_joins hrun hgap hroom hlen]
  exact completeFrame_of_isWhole hroom List.length_append (hheld.append b) hwhole

end

/-- Settles O14: slot 1 holds the length byte of the frame that `b` completes. -/
theorem rxbyteDispatchesTheCompletedFrame : Obligations.RxbyteDispatchesTheCompletedFrame := by
  unfold Obligations.RxbyteDispatchesTheCompletedFrame
  intro s b t f lenb hrun hgap hlen hmin hcap hread hlenb htotal
  have hheld : s.buf.Holds f := fun a ha => hread a (hlen ▸ ha)
  rw [← hlen] at hmin hcap htotal ⊢
  have hlength : (f ++ [b]).length = f.length + 1 := List.length_append
  have hwhole : IsWhole (f ++ [b]) :=
    ⟨hlength ▸ Nat.succ_le_succ hmin, lenb, (List.getElem?_append_left (by omega)).trans hlenb, htotal.trans hlength.symm⟩
  exact ⟨s.buf.write f.length b, _, exec_dispatch_of_isWhole hwhole _,
    exec_rxbyte_completes hrun (.inr hgap) (Nat.lt_succ_of_le hcap) hlen.symm hheld hwhole,
    Memory.read_write_same _ _ b, fun _ => Memory.read_write_other _ b⟩

/-- The step at a port whose next instant holds the first byte of a feed. -/
theorem step_feed {s : State} {b : Byte} {f : Frame} {t dt : Time} {later : List (List PortWord)}
    (h : s.inbox = feed (b :: f) t dt ++ later) :
    step s = exec (.rxbyte b t) (s.took (feed f (t + dt) dt ++ later)) :=
  step_of_decode (by rw [h]; exact nextWord_single _ _) rfl

/-- The time of the last byte of a feed, counted from its first byte or from its second. -/
theorem feed_lastTime (t dt : Time) (n : Nat) :
    t + dt + BitVec.ofNat 32 n * dt = t + BitVec.ofNat 32 (n + 1) * dt := by
  rw [BitVec.ofNat_add, add_mul, add_comm (_ * dt), BitVec.one_mul, ← add_assoc]

theorem length_lt_of_append_cons_le {f g : Frame} {b : Byte} {n : Nat} (h : (f ++ b :: g).length ≤ n) : f.length < n := by
  rw [List.length_append, List.length_cons] at h
  omega

/-- With the bytes `f` held, the rest of a whole frame fed with no gap over the threshold: every byte but the last waits,
the last one dispatches the frame. -/
theorem runSteps_feed {f g : Frame} {b : Byte} {t dt : Time} {later : List (List PortWord)} {s : State}
    (hrun : s.halted = false) (hgap : s.len = 0 ∨ (t - s.lastRx).toNat ≤ 64) (hlen : s.len = f.length)
    (hheld : s.buf.Holds f) (hwhole : IsWhole (f ++ b :: g)) (hcap : (f ++ b :: g).length ≤ Config.cap)
    (hdt : dt.toNat ≤ 64) (hinbox : s.inbox = feed (b :: g) t dt ++ later) :
    runSteps (g.length + 1) s = .next (dispatchFrame (f ++ b :: g)
      { s with buf := layBytes s.buf f.length (b :: g), len := 0, lastRx := t + BitVec.ofNat 32 g.length * dt
               sendWindowOpen := false, inbox := later }) := by
  induction g generalizing f b t s with
  | nil =>
    have hlast : t + BitVec.ofNat 32 0 * dt = t := by simp
    have hroom : f.length < Config.cap := length_lt_of_append_cons_le hcap
    have hstep := (step_feed hinbox).trans (exec_rxbyte_completes (s := s.took _) hrun hgap hroom hlen hheld hwhole)
    rw [List.length_nil, runSteps_next 0 hstep, hlast]
    rfl
  | cons c g ih =>
    have hroom : f.length < Config.cap := length_lt_of_append_cons_le hcap
    have hsplit : f ++ b :: c :: g = (f ++ [b]) ++ c :: g := List.append_cons f b (c :: g)
    have hlength : (f ++ [b]).length = f.length + 1 := List.length_append
    have hgap' : (t + dt - t).toNat ≤ 64 := by rwa [add_sub_cancel_left]
    rw [hsplit] at hwhole hcap ⊢
    have hpart : ¬ IsWhole (f ++ [b]) := hwhole.not_isWhole_front (List.cons_ne_nil c g)
    have hstep := (step_feed hinbox).trans (exec_rxbyte_waits (s := s.took _) hrun hgap hroom hlen hheld hpart)
    rw [List.length_cons, runSteps_next _ hstep, ← feed_lastTime]
    refine Eq.trans (ih hrun (.inr hgap') hlength.symm (hheld.append b) hwhole hcap rfl) ?_
    rw [hlength]
    rfl

/-- Settles O17: the feed from the empty assembler on; the dispatch that ends it keeps buffer, LEN and input queue. -/
theorem fedFrameIsDispatchedWhole : Obligations.FedFrameIsDispatchedWhole := by
  unfold Obligations.FedFrameIsDispatchedWhole
  intro s f lenb t0 dt later hrun hempty hmin hcap hlenb htotal hdt hinbox
  have hwhole : IsWhole f := ⟨hmin, lenb, hlenb, htotal⟩
  match f with
  | [] => cases hlenb
  | b :: g =>
    have hnone : s.buf.Holds [] := fun a ha => absurd ha (Nat.not_lt_zero a)
    refine ⟨_, runSteps_feed (f := []) hrun (.inl hempty) hempty hnone hwhole hcap hdt hinbox,
      (dispatchFrame_change _ _).quiet.len, (dispatchFrame_change _ _).quiet.inbox, fun a => ?_,
      exec_dispatch_of_isWhole hwhole _⟩
    rw [(dispatchFrame_change _ _).quiet.buf, layBytes_read]
    simp

end Sys2Proof.Machine
end

section
/-! PROOFS. The ChecksumValidator (41_checksum.md): the exclusive-or fold over the shapes of a list, the verdict by the fold
of the whole sequence, and what a difference between two sequences does to it (R130, R132). -/

namespace Sys2Proof.Machine

/-! ### The fold -/

theorem xorFold_cons (b : Byte) (f : List Byte) : xorFold (b :: f) = b ^^^ xorFold f :=
  List.foldl_cons_eq_apply_foldl.trans (BitVec.xor_comm _ _)

theorem xorFold_concat (front : List Byte) (ck : Byte) : xorFold (front ++ [ck]) = xorFold front ^^^ ck :=
  List.foldl_concat _ _ _ _

/-- Changing one byte by a difference `d` changes the fold by `d`, wherever the byte stands. -/
theorem xorFold_set {f : List Byte} {k : Nat} {b : Byte} (d : Byte) (hk : f[k]? = some b) :
    xorFold (f.set k (b ^^^ d)) = xorFold f ^^^ d := by
  induction f generalizing k with
  | nil => cases hk
  | cons a f ih =>
    cases k with
    | zero =>
      cases hk
      rw [List.set_cons_zero, xorFold_cons, xorFold_cons]
      ac_rfl
    | succ k => rw [List.set_cons_succ, xorFold_cons, xorFold_cons, ih hk, BitVec.xor_assoc]

/-- The number of places at which bit `j` of two sequences differs. -/
def bitFlips (j : Nat) (f g : List Byte) : Nat := (List.zip f g).countP fun p => p.1.getLsbD j != p.2.getLsbD j

theorem bitFlips_cons (j : Nat) (a b : Byte) (f g : List Byte) :
    bitFlips j (a :: f) (b :: g) = bitFlips j f g + (a.getLsbD j ^^ b.getLsbD j).toNat := by
  rw [bitFlips, List.zip_cons_cons, List.countP_cons]
  cases a.getLsbD j <;> cases b.getLsbD j <;> rfl

/-- The two folds differ in a bit exactly when the bit is flipped an odd number of times. -/
theorem getLsbD_xorFold_xor (j : Nat) {f g : List Byte} (h : f.length = g.length) :
    (xorFold f ^^^ xorFold g).getLsbD j = decide (bitFlips j f g % 2 = 1) := by
  induction f generalizing g with
  | nil =>
    cases List.length_eq_zero_iff.1 h.symm
    simp [bitFlips]
  | cons a f ih =>
    match g, h with
    | b :: g, h =>
      have hsplit : xorFold (a :: f) ^^^ xorFold (b :: g) = (a ^^^ b) ^^^ (xorFold f ^^^ xorFold g) := by
        rw [xorFold_cons, xorFold_cons]
        ac_rfl
      rw [hsplit, BitVec.getLsbD_xor, ih (Nat.succ.inj h), BitVec.getLsbD_xor, bitFlips_cons]
      cases a.getLsbD j ^^ b.getLsbD j with
      | false => simp
      | true =>
        have hparity : ¬ bitFlips j f g % 2 = 1 ↔ (bitFlips j f g + 1) % 2 = 1 := by omega
        rw [Bool.true_xor, ← decide_not]
        exact decide_eq_decide.2 hparity

/-! ### The verdict (R130) -/

theorem checksumValid_concat (front : List Byte) (ck : Byte) :
    checksumValid (front ++ [ck]) = (xorFold front == ck) := by
  rw [checksumValid, List.getLast?_concat, List.dropLast_concat]
  exact BEq.comm

/-- The last byte is the fold of the others exactly when the fold of all is 0. -/
theorem xorFold_eq_last_iff (front : List Byte) (ck : Byte) : xorFold front = ck ↔ xorFold (front ++ [ck]) = 0 := by
  rw [xorFold_concat]
  exact BitVec.xor_eq_zero_iff.symm

theorem checksumValid_iff {f : Frame} (hf : f ≠ []) : checksumValid f = true ↔ xorFold f = 0 := by
  rw [← List.dropLast_concat_getLast hf, checksumValid_concat, beq_iff_eq]
  exact xorFold_eq_last_iff _ _

/-- CHECKSUM hands back the verdict on a non-empty sequence and writes nothing else. -/
theorem exec_checksum {f : Frame} (hf : f ≠ []) (s : State) :
    exec (.checksum f) s = .next { s with result := .verdict (checksumValid f) } :=
  if_pos ((nonEmpty_iff f).2 hf)

/-- What CHECKSUM hands back, by the fold of the whole sequence. -/
theorem result_of_exec_checksum {f : Frame} {s u : State} (hf : f ≠ []) (h : exec (.checksum f) s = .next u) :
    u.result = .verdict (xorFold f == 0) := by
  rw [exec_checksum hf] at h
  cases h
  exact congrArg Result.verdict (Bool.eq_iff_iff.2 ((checksumValid_iff hf).trans beq_iff_eq.symm))

theorem verdict_true_iff {f : Frame} {s u : State} (hf : f ≠ []) (h : exec (.checksum f) s = .next u) :
    u.result = .verdict true ↔ xorFold f = 0 := by
  rw [result_of_exec_checksum hf h, Result.verdict.injEq, beq_iff_eq]

/-- Settles O18: CHECKSUM's equation, and the fold with the last byte taken off. -/
theorem checksumComparesTheFold : Obligations.ChecksumComparesTheFold := by
  unfold Obligations.ChecksumComparesTheFold
  intro s front ck
  refine ⟨?_, xorFold_eq_last_iff front ck⟩
  rw [exec_checksum (List.concat_ne_nil ck front), checksumValid_concat]
  rfl

/-- Settles O19: the three instructions test for the empty sequence first. -/
theorem emptySequenceIsRefused : Obligations.EmptySequenceIsRefused := by
  unfold Obligations.EmptySequenceIsRefused
  exact fun _ => ⟨rfl, rfl, rfl⟩

/-! ### What the checksum detects (R132) -/

/-- Two sequences have the same fold exactly when every bit is flipped an even number of times between them. -/
theorem xorFold_eq_iff_even_bitFlips {f g : List Byte} (h : f.length = g.length) :
    xorFold f = xorFold g ↔ ∀ j, j < 8 → bitFlips j f g % 2 = 0 :=
  calc xorFold f = xorFold g
      ↔ xorFold f ^^^ xorFold g = 0 := BitVec.xor_eq_zero_iff.symm
    _ ↔ ∀ j, j < 8 → (xorFold f ^^^ xorFold g).getLsbD j = false := by
        simp only [BitVec.eq_of_getLsbD_eq_iff, BitVec.ofNat_eq_ofNat, BitVec.getLsbD_zero]
    _ ↔ ∀ j, j < 8 → bitFlips j f g % 2 = 0 := by
        simp [getLsbD_xorFold_xor _ h]

theorem twoPow_ne_zero {j : Nat} (hj : j < 8) : BitVec.twoPow 8 j ≠ 0 := fun h => by
  simpa [hj] using congrArg (BitVec.getLsbD · j) h

/-- Settles O20: a valid sequence has fold 0, so the other is valid exactly when the folds are equal; one flipped bit moves
the fold off 0. -/
theorem checksumDetectsOddBitFlips : Obligations.ChecksumDetectsOddBitFlips := by
  unfold Obligations.ChecksumDetectsOddBitFlips
  constructor
  · intro s u v f g hf hlength hu hvalid hv
    have hg : g ≠ [] := fun h => hf (List.length_eq_zero_iff.1 (hlength.trans (List.length_eq_zero_iff.2 h)))
    have hfold : xorFold f = 0 := (verdict_true_iff hf hu).1 hvalid
    rw [verdict_true_iff hg hv, ← hfold, eq_comm]
    exact xorFold_eq_iff_even_bitFlips hlength
  · intro s u v f k j b hk hj hu hvalid hv
    have hf : f ≠ [] := by rintro rfl; cases hk
    have hfold : xorFold f = 0 := (verdict_true_iff hf hu).1 hvalid
    rw [result_of_exec_checksum (mt (List.set_eq_nil_iff _ _).1 hf) hv, xorFold_set _ hk, hfold]
    simpa using twoPow_ne_zero hj

end Sys2Proof.Machine
end

section
/-! PROOFS. The EventDispatcher (42_dispatch.md): DISPATCH step by step, the table lookup, the effects of the matched entry,
that nothing but the lookup reads the rule table, and the actions of one complete frame. -/

namespace Sys2Proof.Machine

/-! ### The steps of DISPATCH (R140) -/

theorem exec_log {f : Frame} (hf : f ≠ []) (s : State) : exec (.log f) s = .next (logFrame f s) :=
  if_pos ((nonEmpty_iff f).2 hf)

theorem exec_dispatch {f : Frame} (hf : f ≠ []) (s : State) : exec (.dispatch f) s = .next (dispatchFrame f s) :=
  if_pos ((nonEmpty_iff f).2 hf)

/-- Steps (a) to (c) of DISPATCH (R140): what LOOKUP finds before it. -/
def beforeLookup (f : Frame) (s : State) : State := radioCount f (cdcHeuristic f (logFrame f s))

theorem dispatchFrame_eq (f : Frame) (s : State) : dispatchFrame f s = lookupAndFire f (beforeLookup f s) := rfl

theorem logFrame_change (f : Frame) (s : State) : EmuChange s (logFrame f s) := .of_emit s _ fun _ => rfl

theorem beforeLookup_params (f : Frame) (s : State) : (beforeLookup f s).params = s.params :=
  (((logFrame_change f s).trans (cdcHeuristic_change f _)).trans (radioCount_change f _)).quiet.params

theorem lookupAndFire_of_none {f : Frame} {s : State} (h : lookupIn s.params.rules f = none) :
    lookupAndFire f s = unmatchedFrame f s := by
  rw [lookupAndFire, h]

/-- An index that LOOKUP answers lies in the table, and its entry fires. -/
theorem lookupAndFire_of_some {f : Frame} {s : State} {i : Nat} (h : lookupIn s.params.rules f = some i) :
    ∃ e, s.params.rules[i]? = some e ∧ lookupAndFire f s = fireEntry e f s := by
  obtain ⟨e, he, hm, hfirst⟩ := lookupIn_some h
  exact ⟨e, he, lookupAndFire_of_first he hm hfirst⟩

/-- Settles O21: the steps are DISPATCH's own, and its last two are read off what LOOKUP finds; the steps before keep the
table. -/
theorem dispatchRunsItsStepsInOrder : Obligations.DispatchRunsItsStepsInOrder := by
  unfold Obligations.DispatchRunsItsStepsInOrder
  intro s f hf
  refine ⟨logFrame f s, cdcHeuristic f (logFrame f s), beforeLookup f s, dispatchFrame f s,
    lookupIn (beforeLookup f s).params.rules f, exec_log hf s, rfl, rfl, rfl, exec_dispatch hf s,
    fun hnone => ?unmatched, fun i hi => ?fire⟩
  case unmatched => exact congrArg Host.Outcome.next (lookupAndFire_of_none hnone).symm
  case fire =>
    obtain ⟨e, he, hfire⟩ := lookupAndFire_of_some hi
    rw [beforeLookup_params] at he
    exact ⟨e, he, congrArg Host.Outcome.next hfire.symm⟩

/-! ### LOG, CDCHEUR and RADIOCNT (R142, R143, R145) -/

/-- Settles O22: LOG's own action, with the verdict on the frame taken apart. -/
theorem logReportsTheVerdict : Obligations.LogReportsTheVerdict := by
  unfold Obligations.LogReportsTheVerdict
  intro s front ck
  rw [exec_log (List.concat_ne_nil ck front), logFrame, checksumValid_concat]
  rfl

/-- R143, as a statement about some shape of the table. -/
theorem anyShapeMatches_iff (t : ShapeTable) (f : Frame) :
    anyShapeMatches t f = true ↔ ∃ sh, (sh = t.s0 ∨ sh = t.s1 ∨ sh = t.s2) ∧ f.length = sh.slen ∧
      ∀ c ∈ sh.conds, f[c.off]? = some c.val := by
  simp only [anyShapeMatches, Bool.or_eq_true, shapeMatches_iff, or_and_right, exists_or, exists_eq_left, or_assoc]

theorem cdcHeuristic_of_shape {f : Frame} {s : State} (h : anyShapeMatches s.params.shapes f = true) :
    cdcHeuristic f s = cdcEntry s := if_pos h

/-- Settles O23: some shape matches, or none does. -/
theorem heuristicEntersOnAnyShape : Obligations.HeuristicEntersOnAnyShape := by
  unfold Obligations.HeuristicEntersOnAnyShape
  intro s f
  refine ⟨fun hsome => ?enters, fun hnone => ?keeps⟩
  case enters =>
    exact ⟨cdcEntry s, rfl, congrArg Host.Outcome.next (cdcHeuristic_of_shape ((anyShapeMatches_iff _ f).2 hsome))⟩
  case keeps =>
    have hno : ¬ anyShapeMatches s.params.shapes f = true := fun hany => by
      obtain ⟨sh, hsh, hlen, hconds⟩ := (anyShapeMatches_iff _ f).1 hany
      obtain ⟨c, hc, hfails⟩ := hnone sh hsh hlen
      exact hfails (hconds c hc)
    exact congrArg Host.Outcome.next (cdcHeuristic_of_no_shape (Bool.eq_false_iff.2 hno))

theorem radioCount_of_radio {f : Frame} {s : State} (h : frameSrc f = some s.params.radioAddr) :
    radioCount f s = { s with radioMessageCount := countUp s.radioMessageCount } :=
  if_pos (beq_iff_eq.2 h)

/-- Settles O24: the source byte is the radio's address or it is not. -/
theorem radioFramesAreCounted : Obligations.RadioFramesAreCounted := by
  unfold Obligations.RadioFramesAreCounted
  exact fun s f => ⟨fun h => congrArg Host.Outcome.next (radioCount_of_radio h),
    fun h => congrArg Host.Outcome.next (radioCount_of_other_source h)⟩

/-! ### LOOKUP (R146) -/

theorem lookupIn_eq_some_iff {es : List RuleEntry} {f : Frame} {i : Nat} :
    lookupIn es f = some i ↔ ∃ e, es[i]? = some e ∧ entryMatches e f = true ∧
      ∀ j, j < i → ∀ e', es[j]? = some e' → entryMatches e' f = false :=
  ⟨lookupIn_some, fun ⟨_, he, hm, hfirst⟩ => lookupIn_of_first he hm hfirst⟩

/-- Settles O25: what an index and what NOMATCH say, with the match of R88 byte by byte. -/
theorem lookupFindsTheFirstMatch : Obligations.LookupFindsTheFirstMatch := by
  unfold Obligations.LookupFindsTheFirstMatch
  intro s f
  simp only [← entryMatches_iff_bytes, Bool.not_eq_true]
  exact ⟨_, rfl, fun _ => lookupIn_eq_some_iff, lookupIn_none⟩

/-- R151: LOOKUP never passes a matching entry by. -/
theorem lookupIn_le {es : List RuleEntry} {f : Frame} {i : Nat} {e : RuleEntry} (he : es[i]? = some e)
    (hm : entryMatches e f = true) : ∃ k, k ≤ i ∧ lookupIn es f = some k := by
  cases hk : lookupIn es f with
  | none => exact absurd hm (by simp [lookupIn_none.1 hk e (List.mem_of_getElem? he)])
  | some k =>
    obtain ⟨-, -, -, hfirst⟩ := lookupIn_some hk
    refine ⟨k, Nat.le_of_not_lt fun hik => ?_, rfl⟩
    exact absurd hm (by simp [hfirst i hik e he])

/-! ### FIRE, HEXT and UNMATCHED (R147, R148, R149) -/

/-- R147: what the key of an entry makes FIRE emit. -/
def keyActions (blocked : Bool) (key : Option KeyCode) : List Action := if blocked then [] else key.toList.map .key

/-- R147: what the command of an entry makes FIRE emit. -/
def cmdActions (cmd : Option CmdId) : List Action := cmd.toList.map .cmd

theorem keyActions_eq_nil_or_singleton (blocked : Bool) (key : Option KeyCode) :
    keyActions blocked key = [] ∨ ∃ k, keyActions blocked key = [.key k] := by
  cases blocked with
  | true => exact .inl rfl
  | false =>
    cases key with
    | none => exact .inl rfl
    | some k => exact .inr ⟨k, rfl⟩

theorem cmdActions_eq_nil_or_singleton (cmd : Option CmdId) :
    cmdActions cmd = [] ∨ ∃ c, cmdActions cmd = [.cmd c] := by
  cases cmd with
  | none => exact .inl rfl
  | some c => exact .inr ⟨c, rfl⟩

/-- Key and command first, then the handler on the state so reached. -/
theorem fireEntry_eq (e : RuleEntry) (f : Frame) (s : State) :
    fireEntry e f s = runHandler f
      { s with actions := s.actions ++ keyActions s.keyboardBlocked e.key ++ cmdActions e.cmd } e.handler :=
  congrArg (runHandler f · e.handler) (fireCmd_fireKey_eq s e)

/-- The operation a handler is, run as an instruction (R87). -/
theorem exec_toInstr {h : Handler} {f : Frame} {i : Instr} (hi : h.toInstr f = .ok i) (s : State) :
    exec i s = .next (runHandler f s h) := by
  cases h <;> cases hi <;> rfl

/-- Settles O26: FIRE's equation, and the handler's operation as an instruction. -/
theorem fireAppliesKeyCommandHandler : Obligations.FireAppliesKeyCommandHandler := by
  unfold Obligations.FireAppliesKeyCommandHandler
  rintro s e f ks cs rfl rfl
  have hfire := congrArg (Host.Outcome.next (φ := Fault) (ρ := Refusal)) (fireEntry_eq e f s)
  refine ⟨fun hnone => ?none, fun i hi => ⟨_, exec_toInstr hi _, hfire⟩⟩
  case none =>
    rw [hnone] at hfire
    exact hfire

/-- Settles O28: the id of R148 is the encoding of the external handler, and both operations only emit. -/
theorem externalAndUnmatchedOnlyEmit : Obligations.ExternalAndUnmatchedOnlyEmit := by
  unfold Obligations.ExternalAndUnmatchedOnlyEmit
  intro s x f
  rw [← extHid_eq]
  refine ⟨?_, rfl, rfl⟩
  rw [extHid, decodeHid_encodeHid]
  rfl

/-! ### Only the lookup reads the rule table (R151) -/

/-- The state with another rule table. -/
def State.withRules (s : State) (rs : List RuleEntry) : State := { s with params := { s.params with rules := rs } }

theorem infoReply_withRules (s : State) (rs : List RuleEntry) :
    infoReply (s.withRules rs) = (infoReply s).withRules rs := by
  rw [infoReply_eq, infoReply_eq]
  rfl

theorem rearmInfoTimer_withRules (s : State) (rs : List RuleEntry) :
    rearmInfoTimer (s.withRules rs) = (rearmInfoTimer s).withRules rs := by
  rw [rearmInfoTimer_eq, rearmInfoTimer_eq]
  rfl

theorem cdcEntry_withRules (s : State) (rs : List RuleEntry) :
    cdcEntry (s.withRules rs) = (cdcEntry s).withRules rs := by
  rw [cdcEntry_eq, cdcEntry_eq]
  rfl

theorem cdcOutkey_withRules (s : State) (rs : List RuleEntry) :
    cdcOutkey (s.withRules rs) = (cdcOutkey s).withRules rs := by
  rw [cdcOutkey_eq, cdcOutkey_eq]
  rfl

theorem cdcDiskchg_withRules (f : Frame) (s : State) (rs : List RuleEntry) :
    cdcDiskchg f (s.withRules rs) = (cdcDiskchg f s).withRules rs := by
  rw [cdcDiskchg, cdcDiskchg, apply_ite (State.withRules · rs)]
  rfl

theorem cdcTmrcancel_withRules (f : Frame) (s : State) (rs : List RuleEntry) :
    cdcTmrcancel f (s.withRules rs) = (cdcTmrcancel f s).withRules rs := by
  rw [cdcTmrcancel, cdcTmrcancel, apply_ite (State.withRules · rs)]
  rfl

theorem runHandler_withRules (f : Frame) (s : State) (rs : List RuleEntry) (h : Handler) :
    runHandler f (s.withRules rs) h = (runHandler f s h).withRules rs := by
  cases h with
  | cdcInforeq => exact (congrArg rearmInfoTimer (infoReply_withRules s rs)).trans (rearmInfoTimer_withRules _ rs)
  | cdcEnter => exact cdcEntry_withRules s rs
  | cdcDiskchg => exact cdcDiskchg_withRules f s rs
  | cdcOutkey => exact cdcOutkey_withRules s rs
  | cdcTmrcancel => exact cdcTmrcancel_withRules f s rs
  | noHandler | cdcPoll | cdcStop | cdcPause | cdcStart | ext x => rfl

theorem fireEntry_withRules (e : RuleEntry) (f : Frame) (s : State) (rs : List RuleEntry) :
    fireEntry e f (s.withRules rs) = (fireEntry e f s).withRules rs := by
  rw [fireEntry_eq, fireEntry_eq, ← runHandler_withRules]
  rfl

theorem cdcHeuristic_withRules (f : Frame) (s : State) (rs : List RuleEntry) :
    cdcHeuristic f (s.withRules rs) = (cdcHeuristic f s).withRules rs := by
  rw [cdcHeuristic, cdcHeuristic, apply_ite (State.withRules · rs), cdcEntry_withRules]
  rfl

theorem radioCount_withRules (f : Frame) (s : State) (rs : List RuleEntry) :
    radioCount f (s.withRules rs) = (radioCount f s).withRules rs := by
  rw [radioCount, radioCount, apply_ite (State.withRules · rs)]
  rfl

theorem beforeLookup_withRules (f : Frame) (s : State) (rs : List RuleEntry) :
    beforeLookup f (s.withRules rs) = (beforeLookup f s).withRules rs := by
  have hlog : logFrame f (s.withRules rs) = (logFrame f s).withRules rs := rfl
  rw [beforeLookup, hlog, cdcHeuristic_withRules, radioCount_withRules, beforeLookup]

/-- Two tables that agree up to the first matching entry of one of them make DISPATCH do the same. -/
theorem dispatchFrame_withRules {f : Frame} {s : State} {rs : List RuleEntry} {k : Nat}
    (hk : lookupIn s.params.rules f = some k) (hagree : ∀ m, m ≤ k → rs[m]? = s.params.rules[m]?) :
    dispatchFrame f (s.withRules rs) = (dispatchFrame f s).withRules rs := by
  obtain ⟨e, he, hm, hfirst⟩ := lookupIn_some hk
  have hold : lookupAndFire f (beforeLookup f s) = fireEntry e f (beforeLookup f s) :=
    lookupAndFire_of_first (by rw [beforeLookup_params]; exact he) hm (by rw [beforeLookup_params]; exact hfirst)
  have hnew : lookupAndFire f ((beforeLookup f s).withRules rs) = fireEntry e f ((beforeLookup f s).withRules rs) :=
    lookupAndFire_of_first ((hagree k le_rfl).trans he) hm
      fun m hmk e' he' => hfirst m hmk e' ((hagree m hmk.le).symm.trans he')
  rw [dispatchFrame_eq, dispatchFrame_eq, beforeLookup_withRules, hnew, hold, fireEntry_withRules]

/-- Settles O27: LOOKUP stops at entry `i` or before it, and up to there the two tables agree. -/
theorem shadowedEntryHasNoEffect : Obligations.ShadowedEntryHasNoEffect := by
  unfold Obligations.ShadowedEntryHasNoEffect
  intro s f i j e e' new hf hij he _ hle htake _ _
  obtain ⟨k, hki, hk⟩ := lookupIn_le he ((entryMatches_iff_take e f).2 ⟨hle, htake⟩)
  have hagree (m : Nat) (hmk : m ≤ k) : (s.params.rules.set j new)[m]? = s.params.rules[m]? :=
    List.getElem?_set_ne (by omega)
  have hdispatch : exec (.dispatch f) (s.withRules (s.params.rules.set j new)) =
      .next ((dispatchFrame f s).withRules (s.params.rules.set j new)) :=
    (exec_dispatch hf _).trans (congrArg Host.Outcome.next (dispatchFrame_withRules hk hagree))
  rw [State.withRules, State.withRules, (dispatchFrame_change f s).quiet.params] at hdispatch
  exact ⟨⟨k, hki, by rw [exec, execLookup, hk]⟩, _, exec_dispatch hf s, hdispatch⟩

/-! ### The actions of one complete frame (R153) -/

/-- The actions a handler may emit on the frame `f` (R153, R165). -/
inductive HandlerAction (f : Frame) : Action → Prop where
  | hext (hid : Byte) : HandlerAction f (.hext hid f)
  | tx (kind : TxKind) : HandlerAction f (.tx kind)
  | tmrArm (seconds : BitVec 16) : HandlerAction f (.tmrArm seconds)
  | tmrCancel : HandlerAction f .tmrCancel
  | unmute : HandlerAction f .unmute
  | video (src : VideoSrc) : HandlerAction f (.video src)

/-- From `s` to `u` only actions of a handler on `f` are emitted. -/
def EmitsAsHandler (f : Frame) (s u : State) : Prop :=
  ∃ as, u.actions = s.actions ++ as ∧ ∀ a ∈ as, HandlerAction f a

theorem EmitsAsHandler.nothing {f : Frame} {s u : State} (h : u.actions = s.actions) : EmitsAsHandler f s u :=
  ⟨[], h.trans (List.append_nil _).symm, List.forall_mem_nil _⟩

theorem EmitsAsHandler.one {f : Frame} {s u : State} {a : Action} (ha : HandlerAction f a)
    (h : u.actions = s.actions ++ [a]) : EmitsAsHandler f s u :=
  ⟨[a], h, List.forall_mem_singleton.2 ha⟩

theorem EmitsAsHandler.trans {f : Frame} {s u v : State} (h : EmitsAsHandler f s u) (k : EmitsAsHandler f u v) :
    EmitsAsHandler f s v := by
  obtain ⟨as, hu, has⟩ := h
  obtain ⟨bs, hv, hbs⟩ := k
  exact ⟨as ++ bs, by rw [hv, hu, List.append_assoc], List.forall_mem_append.2 ⟨has, hbs⟩⟩

theorem EmitsAsHandler.ite {f : Frame} {s u v : State} {c : Bool} (hu : EmitsAsHandler f s u)
    (hv : EmitsAsHandler f s v) : EmitsAsHandler f s (if c then u else v) := by
  cases c with
  | true => exact hu
  | false => exact hv

theorem infoReply_emits (f : Frame) (s : State) : EmitsAsHandler f s (infoReply s) := by
  unfold infoReply
  split
  · exact .trans (.one (.tx _) rfl) (.one .unmute rfl)
  all_goals exact .one (.tx _) rfl

theorem rearmInfoTimer_emits (f : Frame) (s : State) : EmitsAsHandler f s (rearmInfoTimer s) := by
  have hcancel : EmitsAsHandler f s (s.emit .tmrCancel) := .one .tmrCancel rfl
  exact .ite (.ite (hcancel.trans (.one (.tmrArm _) rfl)) (.one (.tmrArm _) rfl)) (.nothing rfl)

theorem runHandler_emits (f : Frame) (s : State) (h : Handler) : EmitsAsHandler f s (runHandler f s h) := by
  cases h with
  | noHandler => exact .nothing rfl
  | cdcPoll | cdcStop | cdcPause | cdcStart => exact .one (.tx _) rfl
  | cdcInforeq => exact (infoReply_emits f s).trans (rearmInfoTimer_emits f _)
  | cdcEnter | cdcOutkey => exact .ite (.one (.video _) rfl) (.nothing rfl)
  | cdcDiskchg => exact .ite (.one (.tx _) rfl) (.nothing rfl)
  | cdcTmrcancel => exact .ite (.one .tmrCancel rfl) (.nothing rfl)
  | ext x => exact .one (.hext _) rfl

/-- The actions of FIRE: at most one key, at most one command, then the handler's. -/
theorem fireEntry_actions (e : RuleEntry) (f : Frame) (s : State) : ∃ ks cs hs : List Action,
    (fireEntry e f s).actions = s.actions ++ (ks ++ cs ++ hs) ∧ (ks = [] ∨ ∃ k, ks = [.key k]) ∧
      (cs = [] ∨ ∃ c, cs = [.cmd c]) ∧ ∀ a ∈ hs, HandlerAction f a := by
  rw [fireEntry_eq]
  obtain ⟨hs, hactions, hhandler⟩ := runHandler_emits f
    { s with actions := s.actions ++ keyActions s.keyboardBlocked e.key ++ cmdActions e.cmd } e.handler
  refine ⟨_, _, hs, ?_, keyActions_eq_nil_or_singleton s.keyboardBlocked e.key, cmdActions_eq_nil_or_singleton e.cmd,
    hhandler⟩
  rw [hactions]
  simp only [List.append_assoc]

/-- The actions of the steps before the lookup: the log, and the video source if the heuristic switches it. -/
theorem beforeLookup_actions (f : Frame) (s : State) : ∃ v : List Action,
    (beforeLookup f s).actions = s.actions ++ .log f (!checksumValid f) :: v ∧ (v = [] ∨ v = [.video .pi]) := by
  have hradio (u : State) : (radioCount f u).actions = u.actions := by
    unfold radioCount
    split <;> rfl
  rw [beforeLookup, hradio]
  unfold cdcHeuristic
  split
  · rw [cdcEntry_eq]
    refine ⟨_, List.append_assoc _ _ _, ?_⟩
    split
    · exact .inr rfl
    · exact .inl rfl
  · exact ⟨[], rfl, .inl rfl⟩

/-- Settles O29: the actions before the lookup, then those of UNMATCHED or of FIRE. -/
theorem dispatchActionShape : Obligations.DispatchActionShape := by
  unfold Obligations.DispatchActionShape
  intro s f hf
  obtain ⟨v, hbefore, hv⟩ := beforeLookup_actions f s
  have hactions {rest : List Action} (h : (dispatchFrame f s).actions = (beforeLookup f s).actions ++ rest) :
      (dispatchFrame f s).actions = s.actions ++ (.log f (!checksumValid f) :: (v ++ rest)) := by
    rw [h, hbefore, List.append_assoc, List.cons_append]
  cases hl : lookupIn (beforeLookup f s).params.rules f with
  | none =>
    have hdispatch : dispatchFrame f s = unmatchedFrame f (beforeLookup f s) := lookupAndFire_of_none hl
    exact ⟨_, _, v, _, exec_dispatch hf s, hactions (congrArg State.actions hdispatch), hv, .inl rfl⟩
  | some i =>
    obtain ⟨e, -, hdispatch⟩ := lookupAndFire_of_some hl
    obtain ⟨ks, cs, hs, hfire, hks, hcs, hhandler⟩ := fireEntry_actions e f (beforeLookup f s)
    refine ⟨_, _, v, _, exec_dispatch hf s, hactions ((congrArg State.actions hdispatch).trans hfire), hv,
      .inr ⟨ks, cs, hs, rfl, hks, hcs, fun a ha => ?_⟩⟩
    cases hhandler a ha with
    | hext _ => rfl
    | tx _ | tmrArm _ | tmrCancel | unmute | video _ => trivial

end Sys2Proof.Machine
end

section
/-! PROOFS. The CdChangerEmulator (43_cd_changer.md): the shared sub-operations INFOREPLY, CDCENTRY and ANNOUNCE, the handlers
built on them, the info timer, the view of the play state; and RXBYTE's independence of the transmit window (R181). -/

namespace Sys2Proof.Machine

/-! ### Replies that set the state (R166, R169, R170, R171) -/

/-- Settles O32: the ids and the four handlers by evaluation. -/
theorem pollStopPauseStart : Obligations.PollStopPauseStart := by
  unfold Obligations.PollStopPauseStart
  exact fun s f => ⟨rfl, rfl, rfl, rfl, rfl⟩

/-! ### INFOREPLY and the info timer (R175, R167, R176) -/

theorem exec_inforeply (s : State) :
    exec .inforeply s = .next { s with actions := s.actions ++ infoReplyActions s.cdPlay } :=
  congrArg Host.Outcome.next (infoReply_eq s)

/-- Settles O33: the reply's actions in each play state. -/
theorem infoReplyFollowsPlayState : Obligations.InfoReplyFollowsPlayState := by
  unfold Obligations.InfoReplyFollowsPlayState
  intro s
  rw [exec_inforeply]
  refine ⟨fun h => ?playing, fun h => ?paused, fun h => ?idle⟩
  case playing => rw [h, infoReplyActions]
  case paused => rw [h, infoReplyActions]
  case idle => obtain h | h := h <;> rw [h, infoReplyActions]

theorem infoTimerUsed_infoReply (s : State) : infoTimerUsed (infoReply s) = infoTimerUsed s := by
  rw [infoReply_eq]
  rfl

theorem rearmInfoTimer_of_unused {s : State} (h : infoTimerUsed s = false) : rearmInfoTimer s = s :=
  if_neg (Bool.eq_false_iff.1 h)

theorem rearmInfoTimer_of_used {s : State} (h : infoTimerUsed s = true) :
    rearmInfoTimer s = { s with infoLive := true, actions := s.actions ++
      if s.infoLive then [.tmrCancel, .tmrArm s.straps.cdinfoIvl] else [.tmrArm s.straps.cdinfoIvl] } := by
  rw [rearmInfoTimer_eq, rearmActions, h, Bool.or_true, if_pos rfl]

/-- Settles O34: the reply keeps straps and timer, so the timer actions after it are those of the state before. -/
theorem infoRequestRepliesThenRearms : Obligations.InfoRequestRepliesThenRearms := by
  unfold Obligations.InfoRequestRepliesThenRearms
  intro s f
  have hstraps : (infoReply s).straps = s.straps := (infoReply_change s).quiet.straps
  have hlive : (infoReply s).infoLive = s.infoLive := by rw [infoReply_eq]
  have hused (h : s.straps.cdinfoIvl ≠ 0) : infoTimerUsed (infoReply s) = true :=
    (infoTimerUsed_infoReply s).trans ((infoTimerUsed_iff s).2 h)
  refine ⟨rfl, infoReply s, rfl, fun h => congrArg Host.Outcome.next ?unused,
    fun h hl => congrArg Host.Outcome.next ?arms, fun h hl => congrArg Host.Outcome.next ?rearms⟩
  case unused =>
    refine rearmInfoTimer_of_unused ((infoTimerUsed_infoReply s).trans (Bool.eq_false_iff.2 fun hu => ?_))
    exact (infoTimerUsed_iff s).1 hu h
  case arms => rw [cdcInforeq, rearmInfoTimer_of_used (hused h), hlive, hstraps, hl, if_neg Bool.false_ne_true]
  case rearms => rw [cdcInforeq, rearmInfoTimer_of_used (hused h), hlive, hstraps, hl, if_pos rfl]

theorem infoTimer_of_live {s : State} (hrun : s.halted = false) (hlive : s.infoLive = true) :
    infoTimer s = infoReply s := by
  rw [infoTimer, hrun, if_neg Bool.false_ne_true, hlive, if_pos rfl]

theorem infoTimer_of_halted_or_not_live {s : State} (h : s.halted = true ∨ s.infoLive = false) : infoTimer s = s := by
  obtain hhalted | hdead := h
  · exact if_pos hhalted
  · rw [infoTimer, hdead, if_neg Bool.false_ne_true, ite_self]

/-- Settles O35: the expiry is a reply, or ignored. -/
theorem infoTimerRepeatsTheReply : Obligations.InfoTimerRepeatsTheReply := by
  unfold Obligations.InfoTimerRepeatsTheReply
  exact ⟨fun _ _ => rfl, fun s =>
    ⟨fun hrun hlive => ⟨infoReply s, rfl, congrArg Host.Outcome.next (infoTimer_of_live hrun hlive)⟩,
      fun h => congrArg Host.Outcome.next (infoTimer_of_halted_or_not_live h)⟩⟩

/-! ### The keyboard and the video source (R177, R168, R173) -/

theorem hasVideo_eq_false {s : State} (h : s.straps.hwrev.toNat < 4) : hasVideo s = false :=
  Bool.eq_false_iff.2 fun hv => Nat.not_le.2 h ((hasVideo_iff s).1 hv)

theorem cdcEntry_of_no_video {s : State} (h : hasVideo s = false) :
    cdcEntry s = { s with keyboardBlocked := false, cdPlay := .playing } :=
  if_neg (Bool.eq_false_iff.1 h)

theorem cdcEntry_of_video {s : State} (h : hasVideo s = true) :
    cdcEntry s = { s with keyboardBlocked := false, cdPlay := .playing, actions := s.actions ++ [.video .pi] } :=
  if_pos h

theorem cdcOutkey_of_no_video {s : State} (h : hasVideo s = false) : cdcOutkey s = { s with keyboardBlocked := true } :=
  if_neg (Bool.eq_false_iff.1 h)

theorem cdcOutkey_of_video {s : State} (h : hasVideo s = true) :
    cdcOutkey s = { s with keyboardBlocked := true, actions := s.actions ++ [.video .bmw] } :=
  if_pos h

/-- Settles O36: CDCENTRY on both sides of HWREV 4; CDC_ENTER runs the same body. -/
theorem modeEntryUnblocksAndPlays : Obligations.ModeEntryUnblocksAndPlays := by
  unfold Obligations.ModeEntryUnblocksAndPlays
  exact fun s f => ⟨fun h => congrArg Host.Outcome.next (cdcEntry_of_no_video (hasVideo_eq_false h)),
    fun h => congrArg Host.Outcome.next (cdcEntry_of_video ((hasVideo_iff s).2 h)), rfl, cdcEntry s, rfl, rfl⟩

/-- Settles O38: CDC_OUTKEY on both sides of HWREV 4. -/
theorem outsideKeyBlocksTheKeyboard : Obligations.OutsideKeyBlocksTheKeyboard := by
  unfold Obligations.OutsideKeyBlocksTheKeyboard
  exact fun s f => ⟨rfl, fun h => congrArg Host.Outcome.next (cdcOutkey_of_no_video (hasVideo_eq_false h)),
    fun h => congrArg Host.Outcome.next (cdcOutkey_of_video ((hasVideo_iff s).2 h))⟩

/-! ### The disk change (R172) -/

theorem diskChangeOk_iff (p : Params) (f : Frame) :
    diskChangeOk p f = true ↔
      ∃ ck pay, f[p.dcCkOff]? = some ck ∧ f[p.dcPayOff]? = some pay ∧ ck = 0x4B ^^^ pay := by
  unfold diskChangeOk dcXor
  cases f[p.dcCkOff]? with
  | none => simp
  | some ck =>
    cases f[p.dcPayOff]? with
    | none => simp
    | some pay => simp

/-- Settles O37: `diskChangeOk` is the check in words, and each way to fail excludes it. -/
theorem diskChangeNeedsItsOwnCheck : Obligations.DiskChangeNeedsItsOwnCheck := by
  unfold Obligations.DiskChangeNeedsItsOwnCheck
  intro s f
  refine ⟨rfl, fun hpass => congrArg Host.Outcome.next (if_pos ((diskChangeOk_iff _ f).2 hpass)),
    fun hfail => congrArg Host.Outcome.next (if_neg fun hok => ?_)⟩
  obtain ⟨ck, pay, hck, hpay, heq⟩ := (diskChangeOk_iff _ f).1 hok
  obtain hno | hno | ⟨ck', pay', hck', hpay', hne⟩ := hfail
  · cases hno.symm.trans hck
  · cases hno.symm.trans hpay
  · cases hck.symm.trans hck'
    cases hpay.symm.trans hpay'
    exact hne heq

/-! ### The timer cancel (R174) -/

theorem tmrCancelPred_iff (p : Params) (f : Frame) : tmrCancelPred p f = true ↔ f ∉ p.tmrCancelExcept := by
  rw [tmrCancelPred, Bool.not_eq_true', ← Bool.not_eq_true, List.contains_iff_mem]

/-- Settles O39: the guard is the predicate together with a live timer. -/
theorem timerCancelIsNeverDoubled : Obligations.TimerCancelIsNeverDoubled := by
  unfold Obligations.TimerCancelIsNeverDoubled
  intro s f
  have hguard : (tmrCancelPred s.params f && s.infoLive) = true ↔ f ∉ s.params.tmrCancelExcept ∧ s.infoLive = true := by
    rw [Bool.and_eq_true, tmrCancelPred_iff]
  refine ⟨rfl, fun hpred hlive => congrArg Host.Outcome.next (if_pos (hguard.2 ⟨hpred, hlive⟩)),
    fun hidle => congrArg Host.Outcome.next (if_neg fun hg => ?_)⟩
  obtain ⟨hpred, hlive⟩ := hguard.1 hg
  exact hidle.elim hpred (Bool.eq_false_iff.1 · hlive)

/-! ### ANNOUNCE (R178) -/

theorem announceDue_iff (s : State) : announceDue s = true ↔ s.cdPolled = false ∧ 0 < s.radioMessageCount := by
  rw [announceDue, Bool.and_eq_true, Bool.not_eq_true', decide_eq_true_iff]

/-- Settles O40: the announcement is due or it is not. -/
theorem announceOnlyUnpolledAndHeard : Obligations.AnnounceOnlyUnpolledAndHeard := by
  unfold Obligations.AnnounceOnlyUnpolledAndHeard
  intro s
  refine ⟨fun hpolled hheard => congrArg Host.Outcome.next (if_pos ((announceDue_iff s).2 ⟨hpolled, hheard⟩)),
    fun hidle => congrArg Host.Outcome.next (if_neg fun hdue => ?_)⟩
  obtain ⟨hpolled, hheard⟩ := (announceDue_iff s).1 hdue
  exact hidle.elim (Bool.eq_false_iff.1 hpolled) hheard.ne'

/-! ### The view of the play state (R32, R179, R180) -/

/-- A poll shows only while no play state covers it. -/
theorem cdView_cdcPoll (s : State) : cdView (cdcPoll s) = if cdView s = .notPolled then .polled else cdView s := by
  have hplay : (cdcPoll s).cdPlay = s.cdPlay := rfl
  have hpolled : (cdcPoll s).cdPolled = true := rfl
  unfold cdView
  rw [hplay, hpolled]
  cases s.cdPlay with
  | none => cases s.cdPolled <;> rfl
  | playing | paused | stopped => rfl

theorem cdView_cdcEntry (s : State) : cdView (cdcEntry s) = .playing := by
  rw [cdcEntry_eq]
  rfl

/-- Settles O41: the poll by `cdView_cdcPoll`, the others by the play state they set. -/
theorem cdViewTransitions : Obligations.CdViewTransitions := by
  unfold Obligations.CdViewTransitions
  exact fun s f => ⟨_, _, _, _, _, rfl, cdView_cdcPoll s, rfl, rfl, rfl, rfl, rfl, rfl, rfl, cdView_cdcEntry s⟩

/-! ### RXBYTE and the transmit window (R181, R257) -/

/-- The gap test reads no window, and the stamp closes it whatever it was (R112, R115). -/
theorem stampByte_resync_setWindow (t : Time) (s : State) (w : Bool) :
    stampByte t (resync t { s with sendWindowOpen := w }) = stampByte t (resync t s) := by
  rw [resync_frame t s, resync_frame t { s with sendWindowOpen := w }, resync_len, resync_len]
  rfl

/-- Settles O54: from the stamp on, the two states are one. -/
theorem rxbyteIgnoresTheWindow : Obligations.RxbyteIgnoresTheWindow := by
  unfold Obligations.RxbyteIgnoresTheWindow
  intro s b t w hrun
  calc exec (.rxbyte b t) { s with sendWindowOpen := w }
      = completeFrame (appendByte b (stampByte t (resync t { s with sendWindowOpen := w }))) :=
        execRxbyte_of_running (s := { s with sendWindowOpen := w }) b t hrun
    _ = completeFrame (appendByte b (stampByte t (resync t s))) := by rw [stampByte_resync_setWindow]
    _ = exec (.rxbyte b t) s := (execRxbyte_of_running b t hrun).symm

end Sys2Proof.Machine
end

section
/-! PROOFS. The tick family (44_tick.md): TICK as its two steps, the tick counter's wrap, and the transmit window's service. -/

namespace Sys2Proof.Machine

/-! ### TICK (R200) -/

theorem execTick_halted {s : State} (t : Time) (hs : s.halted = true) : execTick t s = .next s := if_pos hs

theorem execTick_running {s : State} (t : Time) (hs : s.halted = false) :
    execTick t s = .next (serviceWindow t (tickCount s)) :=
  if_neg (Bool.eq_false_iff.1 hs)

/-- Settles O42: the state between the two steps is the counted one. -/
theorem tickCountsThenServices : Obligations.TickCountsThenServices := by
  unfold Obligations.TickCountsThenServices
  exact fun s t => ⟨fun _ => rfl, execTick_halted t,
    fun hrun => ⟨tickCount s, serviceWindow t (tickCount s), rfl, rfl, execTick_running t hrun⟩⟩

/-! ### TICKCNT (R201) -/

theorem countReaches_iff (s : State) : s.tick600 + 1 = announceTicks ↔ s.tick600 = 599 := Nat.succ_inj

theorem tickCount_of_before {s : State} (h : s.tick600 ≠ 599) : tickCount s = { s with tick600 := s.tick600 + 1 } :=
  if_neg (mt (countReaches_iff s).1 h)

/-- The wrap (R201), with the announcement behind `MK3_EN` (R202). -/
theorem tickCount_of_last {s : State} (h : s.tick600 = 599) :
    tickCount s = if s.straps.mk3En then announce { s with tick600 := 0 } else { s with tick600 := 0 } :=
  if_pos ((countReaches_iff s).2 h)

/-- Settles O43: the counter stands before its last value, or wraps without or with `MK3_EN`. -/
theorem tickCountWrapsAndAnnounces : Obligations.TickCountWrapsAndAnnounces := by
  unfold Obligations.TickCountWrapsAndAnnounces
  refine fun s => ⟨fun hbefore => congrArg Host.Outcome.next (tickCount_of_before hbefore),
    fun hlast hmk3 => congrArg Host.Outcome.next ?silent,
    fun hlast hmk3 => ⟨announce { s with tick600 := 0 }, rfl, congrArg Host.Outcome.next ?announces⟩⟩
  case silent => rw [tickCount_of_last hlast, hmk3, if_neg Bool.false_ne_true]
  case announces => rw [tickCount_of_last hlast, hmk3, if_pos rfl]

/-! ### WINSVC (R204) -/

theorem serviceWindow_of_unmonitored {s : State} (t : Time) (h : s.straps.mongpio = 0) : serviceWindow t s = s :=
  if_neg fun hmonitors => (monitorsLine_iff s).1 hmonitors h

theorem serviceWindow_of_monitored {s : State} (t : Time) (h : s.straps.mongpio ≠ 0) :
    serviceWindow t s = { s with sendWindowOpen := s.sendWindowOpen || windowMayOpen t s
                                 actions := s.actions ++ [.txqService s.sendWindowOpen] } := by
  rw [serviceWindow_eq, if_pos ((monitorsLine_iff s).2 h)]

theorem windowMayOpen_eq_false {t : Time} {s : State} (h : (t - s.lastRx).toNat < 100 ∨ s.len ≠ 0) :
    windowMayOpen t s = false := by
  refine Bool.eq_false_iff.2 fun hmay => ?_
  obtain ⟨hquiet, hempty⟩ := (windowMayOpen_iff t s).1 hmay
  exact h.elim (Nat.not_lt.2 hquiet) (· hempty)

/-- Settles O44: with line monitoring the test for quiet decides the flag. -/
theorem windowServiceThenOpens : Obligations.WindowServiceThenOpens := by
  unfold Obligations.WindowServiceThenOpens
  refine fun s t => ⟨fun hoff => congrArg Host.Outcome.next (serviceWindow_of_unmonitored t hoff),
    fun hon hquiet hempty => congrArg Host.Outcome.next ?opens, fun hon hbusy => congrArg Host.Outcome.next ?stays⟩
  case opens =>
    rw [serviceWindow_of_monitored t hon, (windowMayOpen_iff t s).2 ⟨hquiet, hempty⟩, Bool.or_true]
  case stays => rw [serviceWindow_of_monitored t hon, windowMayOpen_eq_false hbusy, Bool.or_false]

end Sys2Proof.Machine
end

section
/-! PROOFS. The exceptions (60_exceptions.md): from the invariant every event is answered (R215), the port's order of events
(R224, R225), a corrupt frame acts like any other (R218), and the halted state (R222). -/

namespace Sys2Proof.Machine

/-! ### No event stops the block (R215) -/

/-- The one way RXBYTE could stop is a read of COMPLETE, and APPEND leaves every slot below LEN written (R22, I3). -/
theorem execRxbyte_answers {s : State} (h : Inv s) (b : Byte) (t : Time) (hs : s.halted = false) :
    ∃ u, execRxbyte b t s = .next u := by
  have hstamped : Inv (stampByte t (resync t s)) := (h.resync t).stampByte t
  rw [execRxbyte_of_running b t hs]
  obtain ⟨hwaits, -⟩ | ⟨f, -, -, hdispatches⟩ :=
    completeFrame_of_written (appendByte_written b hstamped) (appendByte_len_le b hstamped.lenLe)
  · exact ⟨_, hwaits⟩
  · exact ⟨_, hdispatches⟩

theorem execRxfault_halted {s : State} (hs : s.halted = true) : execRxfault s = .next s := if_pos hs

theorem execRxfault_running {s : State} (hs : s.halted = false) : execRxfault s = .next (raiseHalt .ioFail s) :=
  if_neg (Bool.eq_false_iff.1 hs)

/-- Every event of the port is answered: by the state itself while halted, and otherwise by the event's own equation. -/
theorem exec_event_answers {w : PortWord} {i : Instr} {s : State} (h : Inv s) (hi : decodePort w = .ok i) :
    ∃ u, exec i s = .next u := by
  cases w with
  | rst t =>
    cases hi
    exact ⟨resetBlock t s, rfl⟩
  | ev c d t =>
    cases hs : s.halted with
    | true => exact ⟨s, exec_of_halted hi hs⟩
    | false =>
      obtain rfl | rfl | rfl | rfl | rfl := decodePort_ev_ok hi
      · exact ⟨s, rfl⟩
      · exact execRxbyte_answers h d t hs
      · exact ⟨_, execTick_running t hs⟩
      · exact ⟨infoTimer s, rfl⟩
      · exact ⟨_, execRxfault_running hs⟩

/-- Settles O47: a word that decodes is an event, which is answered with the word taken; a reserved code is ignored. -/
theorem noEventStopsTheBlock : Obligations.NoEventStopsTheBlock := by
  unfold Obligations.NoEventStopsTheBlock
  intro s h
  cases hi : decodePort (nextWord s.inbox).1 with
  | error e => exact ⟨_, step_of_reserved rfl hi⟩
  | ok i =>
    obtain ⟨u, hu⟩ := exec_event_answers (h.took (nextWord s.inbox).2) hi
    exact ⟨u, (step_of_decode rfl hi).trans hu⟩

/-! ### The port's order (R224, R225) -/

theorem le_foldl_min_portPriority_iff {n p : Nat} {ws : List PortWord} :
    n ≤ ws.foldl (fun q x => min q (portPriority x)) p ↔ n ≤ p ∧ ∀ x ∈ ws, n ≤ portPriority x := by
  induction ws generalizing p with
  | nil => simp
  | cons x ws ih => rw [List.foldl_cons, ih, le_min_iff, List.forall_mem_cons, and_assoc]

/-- The highest priority is the greatest lower bound of the ready words' priority numbers, 5 being the last. -/
theorem le_bestPriority_iff {n : Nat} {ws : List PortWord} :
    n ≤ bestPriority ws ↔ n ≤ 5 ∧ ∀ x ∈ ws, n ≤ portPriority x :=
  le_foldl_min_portPriority_iff

theorem bestPriority_eq {ws : List PortWord} {w : PortWord} (hw : w ∈ ws)
    (hbest : ∀ x ∈ ws, portPriority w ≤ portPriority x) : bestPriority ws = portPriority w := by
  obtain ⟨-, hlower⟩ := le_bestPriority_iff.1 (le_refl (bestPriority ws))
  exact le_antisymm (hlower w hw) (le_bestPriority_iff.2 ⟨portPriority_le w, hbest⟩)

theorem hasPriority_iff {p : Nat} {w : PortWord} : hasPriority p w = true ↔ portPriority w = p := beq_iff_eq

/-- R225: the first word of the highest priority is taken out, and the instant is over when nothing else was ready. -/
theorem takeReady_of_first {before after : List PortWord} {w : PortWord} (later : List (List PortWord))
    (hbefore : ∀ x ∈ before, portPriority w < portPriority x) (hafter : ∀ x ∈ after, portPriority w ≤ portPriority x) :
    takeReady (before ++ w :: after) later =
      (w, if before ++ after = [] then later else (before ++ after) :: later) := by
  have hbest : bestPriority (before ++ w :: after) = portPriority w :=
    bestPriority_eq List.mem_append_cons_self <|
      List.forall_mem_append.2 ⟨fun x hx => (hbefore x hx).le, List.forall_mem_cons.2 ⟨le_rfl, hafter⟩⟩
  have hpass (x : PortWord) (hx : x ∈ before) : ¬ hasPriority (portPriority w) x = true :=
    fun heq => (hbefore x hx).ne' (hasPriority_iff.1 heq)
  have hstop : hasPriority (portPriority w) w = true := hasPriority_iff.2 rfl
  have hfind : (before ++ w :: after).find? (hasPriority (portPriority w)) = some w := by
    rw [List.find?_append, List.find?_eq_none.2 hpass, Option.none_or, List.find?_cons_of_pos hstop]
  have herase : (before ++ w :: after).eraseP (hasPriority (portPriority w)) = before ++ after := by
    rw [List.eraseP_append_right _ hpass, List.eraseP_cons_of_pos hstop]
  simp only [takeReady, hbest, hfind, herase]
  cases before ++ after with
  | nil => rfl
  | cons x rest => rfl

/-- Settles O8: the port's rule at its first instant, the priorities as numbers, and the port with nothing offered. -/
theorem portPresentsTheHighestPriority : Obligations.PortPresentsTheHighestPriority := by
  unfold Obligations.PortPresentsTheHighestPriority
  refine ⟨fun before after w later => takeReady_of_first later, fun t t1 t3 d d1 d2 d3 t0 t2 => ?_, nextWord_empty⟩
  have hrst : portPriority (.rst t) = 0 := rfl
  have hrxfault : portPriority (.ev 4 d t0) = 1 := rfl
  have hrxbyte : portPriority (.ev 1 d1 t1) = 2 := rfl
  have hinfotmr : portPriority (.ev 3 d2 t2) = 3 := rfl
  have htick : portPriority (.ev 2 d3 t3) = 4 := rfl
  omega

/-! ### A corrupt frame acts like any other (R218) -/

/-- DISPATCH fires the first matching entry; of the checksum only the log before it speaks (R131, R140). -/
theorem dispatchFrame_of_first {f : Frame} {s : State} {i : Nat} {e : RuleEntry} (he : s.params.rules[i]? = some e)
    (hm : entryMatches e f = true)
    (hfirst : ∀ j, j < i → ∀ e', s.params.rules[j]? = some e' → entryMatches e' f = false) :
    dispatchFrame f s = fireEntry e f (beforeLookup f s) := by
  rw [← beforeLookup_params f s] at he hfirst
  exact lookupAndFire_of_first he hm hfirst

/-- Settles O30: the entry fires, and its handler, run last, sets the state and emits the reply. -/
theorem corruptCommandStillActs : Obligations.CorruptCommandStillActs := by
  unfold Obligations.CorruptCommandStillActs
  intro s f i e hf he hle htake hfirst
  have hdispatch : dispatchFrame f s = fireEntry e f (beforeLookup f s) :=
    dispatchFrame_of_first he ((entryMatches_iff_take e f).2 ⟨hle, htake⟩) fun j hj e' he' =>
      Bool.eq_false_iff.2 fun hm => hfirst j hj e' he' ((entryMatches_iff_take e' f).1 hm)
  refine ⟨_, (fireCmd e.cmd (fireKey e.key (beforeLookup f s))).actions, exec_dispatch hf s, fun hpoll => ?poll,
    fun hstop => ?stop⟩
  case poll =>
    rw [hdispatch, fireEntry, hpoll]
    exact ⟨rfl, rfl⟩
  case stop =>
    rw [hdispatch, fireEntry, hstop]
    exact ⟨rfl, rfl⟩

/-! ### The halted state (R222) -/

/-- Settles O5: RXFAULT on a running block is `raiseHalt`, and each event on a halted one has its own equation. -/
theorem rxfaultHaltsAndHaltedIgnoresEvents : Obligations.RxfaultHaltsAndHaltedIgnoresEvents := by
  unfold Obligations.RxfaultHaltsAndHaltedIgnoresEvents
  refine ⟨fun d t => rfl, fun s => execRxfault_running, fun s hs => ?_⟩
  exact ⟨execRxfault_halted hs, congrArg Host.Outcome.next (infoTimer_of_halted_or_not_live (.inl hs)), rfl,
    fun t => execTick_halted t hs, fun b t => execRxbyte_halted b t hs⟩

end Sys2Proof.Machine
end

section
/-! PROOFS. RESET (R240), and the promises of the emulator that every other instruction keeps (R180, R256, R258).
`exec_promises` says them once for all instructions; the two statements are read off it. -/

namespace Sys2Proof.Machine

/-! ### The promises of the emulator -/

/-- What `EmuChange` promises of `u` after `s` (R258, R180, R256), without its frame: an operation that also writes registers
of the assembler or the tick can promise it too. -/
structure EmuPromises (s u : State) : Prop where
  polled  : s.cdPolled = true → u.cdPolled = true
  played  : s.cdPlay ≠ .none → u.cdPlay ≠ .none
  emitted : ∃ as, u.actions = s.actions ++ as ∧ timerAfter s.infoLive as = some u.infoLive

theorem EmuChange.promises {s u : State} (h : EmuChange s u) : EmuPromises s u := ⟨h.polled, h.played, h.emitted⟩

/-- An operation that keeps the emulator's registers and emits nothing. -/
theorem EmuPromises.of_kept {s u : State} (hpolled : u.cdPolled = s.cdPolled) (hplay : u.cdPlay = s.cdPlay)
    (hlive : u.infoLive = s.infoLive) (hactions : u.actions = s.actions) : EmuPromises s u :=
  ⟨hpolled.trans, fun h => hplay ▸ h, [], by rw [hactions, List.append_nil], by rw [hlive, timerAfter]⟩

theorem EmuPromises.refl (s : State) : EmuPromises s s := .of_kept rfl rfl rfl rfl

theorem EmuPromises.trans {s u v : State} (h : EmuPromises s u) (k : EmuPromises u v) : EmuPromises s v := by
  obtain ⟨as, ha, ta⟩ := h.emitted
  obtain ⟨bs, hb, tb⟩ := k.emitted
  refine ⟨fun x => k.polled (h.polled x), fun x => k.played (h.played x), as ++ bs, ?_, ?_⟩
  · rw [hb, ha, List.append_assoc]
  · rw [timerAfter_append, ta]
    exact tb

/-! ### The operations that write other registers too -/

theorem resync_promises (t : Time) (s : State) : EmuPromises s (resync t s) := by
  rw [resync_frame]
  exact .of_kept rfl rfl rfl rfl

theorem appendByte_promises (b : Byte) (s : State) : EmuPromises s (appendByte b s) := by
  rw [appendByte_frame]
  exact .of_kept rfl rfl rfl rfl

theorem completeFrame_promises {s u : State} (h : completeFrame s = .next u) : EmuPromises s u := by
  obtain ⟨_, hchange⟩ := completeFrame_change h
  exact ⟨hchange.polled, hchange.played, hchange.emitted⟩

theorem execRxbyte_promises {s u : State} {b : Byte} {t : Time} (h : execRxbyte b t s = .next u) : EmuPromises s u := by
  cases hs : s.halted with
  | true =>
    cases (execRxbyte_halted b t hs).symm.trans h
    exact .refl s
  | false =>
    obtain ⟨_, _, hchange⟩ := execRxbyte_change hs h
    exact ⟨hchange.polled, hchange.played, hchange.emitted⟩

theorem execRxfault_promises {s u : State} (h : execRxfault s = .next u) : EmuPromises s u := by
  cases hs : s.halted with
  | true =>
    cases (execRxfault_halted hs).symm.trans h
    exact .refl s
  | false =>
    cases (execRxfault_running hs).symm.trans h
    exact ⟨id, id, _, rfl, rfl⟩

theorem tickCount_promises (s : State) : EmuPromises s (tickCount s) := by
  have hwrapped : EmuPromises s { s with tick600 := 0 } := .of_kept rfl rfl rfl rfl
  unfold tickCount
  split
  · split
    · exact hwrapped.trans (announce_change _).promises
    · exact hwrapped
  · exact .of_kept rfl rfl rfl rfl

theorem serviceWindow_promises (t : Time) (s : State) : EmuPromises s (serviceWindow t s) := by
  rw [serviceWindow_eq]
  split
  · exact ⟨id, id, _, rfl, rfl⟩
  · exact .refl s

theorem execTick_promises {s u : State} {t : Time} (h : execTick t s = .next u) : EmuPromises s u := by
  cases hs : s.halted with
  | true =>
    cases (execTick_halted t hs).symm.trans h
    exact .refl s
  | false =>
    cases (execTick_running t hs).symm.trans h
    exact (tickCount_promises s).trans (serviceWindow_promises t _)

theorem handBack_promises (s : State) (r : Result) : EmuPromises s { s with result := r } := .of_kept rfl rfl rfl rfl

/-! ### All instructions -/

/-- An instruction that answers `v` outright. -/
theorem EmuPromises.of_next {s u v : State} (hv : EmuPromises s v)
    (h : Host.Outcome.next (φ := Fault) (ρ := Refusal) v = .next u) : EmuPromises s u := by
  cases h
  exact hv

/-- An instruction that answers `v` or is refused. -/
theorem EmuPromises.of_guarded {s u v : State} {c : Bool} {r : Refusal} (hv : EmuPromises s v)
    (h : (if c then Host.Outcome.next (φ := Fault) v else .refused r) = .next u) : EmuPromises s u := by
  split at h <;> cases h
  exact hv

/-- Every instruction but RESET keeps the emulator's promises. -/
theorem exec_promises {i : Instr} {s u : State} (h : exec i s = .next u) (hreset : ∀ t, i ≠ .reset t) :
    EmuPromises s u := by
  cases i with
  | reset t => exact absurd rfl (hreset t)
  | noEvent => exact .of_next (.refl s) h
  | rxbyte b t => exact execRxbyte_promises h
  | tick t => exact execTick_promises h
  | infotmr => exact .of_next (infoTimer_change s).promises h
  | rxfault => exact execRxfault_promises h
  | cdcPoll f => exact .of_next (runHandler_change f s .cdcPoll).promises h
  | cdcInforeq f => exact .of_next (runHandler_change f s .cdcInforeq).promises h
  | cdcEnter f => exact .of_next (runHandler_change f s .cdcEnter).promises h
  | cdcStop f => exact .of_next (runHandler_change f s .cdcStop).promises h
  | cdcPause f => exact .of_next (runHandler_change f s .cdcPause).promises h
  | cdcStart f => exact .of_next (runHandler_change f s .cdcStart).promises h
  | cdcDiskchg f => exact .of_next (runHandler_change f s .cdcDiskchg).promises h
  | cdcOutkey f => exact .of_next (runHandler_change f s .cdcOutkey).promises h
  | cdcTmrcancel f => exact .of_next (runHandler_change f s .cdcTmrcancel).promises h
  | hext x f => exact .of_next (runHandler_change f s (.ext x)).promises h
  | resync t => exact .of_next (resync_promises t s) h
  | append b => exact .of_next (appendByte_promises b s) h
  | complete => exact completeFrame_promises h
  | checksum f => exact .of_guarded (handBack_promises s _) h
  | dispatch f => exact .of_guarded (dispatchFrame_change f s).promises h
  | log f => exact .of_guarded (logFrame_change f s).promises h
  | cdcheur f => exact .of_next (cdcHeuristic_change f s).promises h
  | radiocnt f => exact .of_next (radioCount_change f s).promises h
  | lookup f => exact .of_next (handBack_promises s _) h
  | fire e f => exact .of_next (fireEntry_change e f s).promises h
  | unmatched f => exact .of_next (EmuChange.of_emit s _ fun _ => rfl).promises h
  | inforeply => exact .of_next (infoReply_change s).promises h
  | cdcentry => exact .of_next (cdcEntry_change s).promises h
  | announce => exact .of_next (announce_change s).promises h
  | tickcnt => exact .of_next (tickCount_promises s) h
  | winsvc t => exact .of_next (serviceWindow_promises t s) h
  | ruleRotary rot ck => exact .of_next (dispatchFrame_change _ s).promises h

/-- Settles O53: the third of the promises, whose core is `timerAfter_rearm` and the guard of CDC_TMRCANCEL. -/
theorem timerDisciplineHolds : Obligations.TimerDisciplineHolds := by
  unfold Obligations.TimerDisciplineHolds
  intro i s u h hreset
  exact (exec_promises h hreset).emitted

/-- Settles O52: the first two of the promises. -/
theorem polledAndPlayedUntilReset : Obligations.PolledAndPlayedUntilReset := by
  unfold Obligations.PolledAndPlayedUntilReset
  intro i s u h hreset
  have hkept := exec_promises h hreset
  exact ⟨hkept.polled, hkept.played⟩

/-! ### RESET (R240) -/

/-- R224: only the reset input has priority 0. -/
theorem portPriority_ev_pos (c : BitVec 3) (d : Byte) (t : Time) : 0 < portPriority (.ev c d t) := by
  simp only [portPriority]
  split <;> decide

/-- Settles O3: RESET is `resetBlock`, which leaves the buffer empty; while halted every event of the port does nothing. -/
theorem resetSetsEveryElement : Obligations.ResetSetsEveryElement := by
  unfold Obligations.ResetSetsEveryElement
  refine ⟨fun s t => ⟨rfl, [], rfl⟩, ?halted, fun t u c d => portPriority_ev_pos c d u⟩
  case halted =>
    intro s hs c d t i hi
    exact exec_of_halted hi hs

end Sys2Proof.Machine
end
